-- ==== Sys2Proof/Word.lean ====
section
/-! DEFINITION. The bit-vector types of the core and the register number (00_scope.md section 6.1, R4). -/

namespace Sys2Proof

/-- `u8`: a register, a memory byte, an 8-bit immediate (R10, R18, R51). -/
abbrev Byte := BitVec 8

/-- `u16`: an instruction word, the index register (R12, R50). -/
abbrev Word := BitVec 16

/-- `u12`: the program counter, a stack entry, an address immediate (R13, R14, R51). -/
abbrev Addr := BitVec 12

/-- A register number; all 16 values are legal in every register field (R53). -/
abbrev Reg := Fin 16

end Sys2Proof
end

