-- ==== Sys2Proof/Syntax.lean ====
section
/-! DEFINITION. The instruction set as syntax: one constructor per row of the opcode table (30_encoding.md R54). -/

namespace Sys2Proof

/-- The 27 instructions of R54, with the operands their rows name (R51, R53, R62). Every operand's type has exactly the
values its field can hold. SHR and SHL carry `y` although they do not use it (R59, R62). -/
inductive Instr where
  /-- 00E0 CLEAR (R130) -/
  | clear
  /-- 00EE RETURN (R90) -/
  | ret
  /-- 1nnn JUMP (R91) -/
  | jump (nnn : Addr)
  /-- 2nnn CALL (R92) -/
  | call (nnn : Addr)
  /-- 3xnn SKIP_EQ_IMM (R93) -/
  | skipEqImm (x : Reg) (nn : Byte)
  /-- 4xnn SKIP_NEQ_IMM (R94) -/
  | skipNeqImm (x : Reg) (nn : Byte)
  /-- 5xy0 SKIP_EQ_REG (R95) -/
  | skipEqReg (x y : Reg)
  /-- 6xnn SET_IMM (R100) -/
  | setImm (x : Reg) (nn : Byte)
  /-- 7xnn ADD_IMM (R101) -/
  | addImm (x : Reg) (nn : Byte)
  /-- 8xy1 OR (R102) -/
  | orReg (x y : Reg)
  /-- 8xy2 AND (R103) -/
  | andReg (x y : Reg)
  /-- 8xy3 XOR (R104) -/
  | xorReg (x y : Reg)
  /-- 8xy4 ADD_REG (R105) -/
  | addReg (x y : Reg)
  /-- 8xy5 SUB_REG (R106) -/
  | subReg (x y : Reg)
  /-- 8xy6 SHR (R107) -/
  | shr (x y : Reg)
  /-- 8xyE SHL (R108) -/
  | shl (x y : Reg)
  /-- Annn SET_INDEX (R120) -/
  | setIndex (nnn : Addr)
  /-- Cxnn RANDOM (R109) -/
  | random (x : Reg) (nn : Byte)
  /-- Dxyn DRAW (R131); `n` is the number of sprite rows, 0 to 15 -/
  | draw (x y : Reg) (n : Fin 16)
  /-- Ex9E SKIP_IF_KEY (R140) -/
  | skipIfKey (x : Reg)
  /-- ExA1 SKIP_IF_NOT_KEY (R141) -/
  | skipIfNotKey (x : Reg)
  /-- Fx07 GET_DELAY_TIMER (R142) -/
  | getDelayTimer (x : Reg)
  /-- Fx15 SET_DELAY_TIMER (R143) -/
  | setDelayTimer (x : Reg)
  /-- Fx1E ADD_TO_INDEX (R121) -/
  | addToIndex (x : Reg)
  /-- Fx29 LOAD_FONT_SPRITE (R122) -/
  | loadFontSprite (x : Reg)
  /-- Fx33 STORE_BCD (R123) -/
  | storeBcd (x : Reg)
  /-- Fx65 LOAD_REGISTERS (R124); `x` is the last register loaded -/
  | loadRegisters (x : Reg)
  deriving DecidableEq, Repr

end Sys2Proof
end

