-- ==== Sys2Proof/WellFormed.lean ====
section
/-! DEFINITION. Well-formedness of an instruction: every operand fits the field that R51 gives it. The operand types hold
exactly the values of the fields, so every term of Instr is well-formed; the check is written out so that a reader can hold
each operand's range beside R51 and R53. -/

namespace Sys2Proof

/-- One operand beside the number of values its field can hold. -/
abbrev Operand := Nat × Nat

/-- A register field or the row count: 4 bits, 0 to 15 (R51, R53). -/
def nibbleOperand (r : Fin 16) : Operand := (r.val, 16)

/-- An 8-bit immediate (R51, R53). -/
def byteOperand (nn : Byte) : Operand := (nn.toNat, 256)

/-- A 12-bit address (R51, R53). -/
def addrOperand (nnn : Addr) : Operand := (nnn.toNat, 4096)

/-- The operands of an instruction in the order of the opcode table's fields column (R54). -/
def Instr.operands : Instr → List Operand
  | .clear => []
  | .ret => []
  | .jump nnn => [addrOperand nnn]
  | .call nnn => [addrOperand nnn]
  | .skipEqImm x nn => [nibbleOperand x, byteOperand nn]
  | .skipNeqImm x nn => [nibbleOperand x, byteOperand nn]
  | .skipEqReg x y => [nibbleOperand x, nibbleOperand y]
  | .setImm x nn => [nibbleOperand x, byteOperand nn]
  | .addImm x nn => [nibbleOperand x, byteOperand nn]
  | .orReg x y => [nibbleOperand x, nibbleOperand y]
  | .andReg x y => [nibbleOperand x, nibbleOperand y]
  | .xorReg x y => [nibbleOperand x, nibbleOperand y]
  | .addReg x y => [nibbleOperand x, nibbleOperand y]
  | .subReg x y => [nibbleOperand x, nibbleOperand y]
  | .shr x y => [nibbleOperand x, nibbleOperand y]
  | .shl x y => [nibbleOperand x, nibbleOperand y]
  | .setIndex nnn => [addrOperand nnn]
  | .random x nn => [nibbleOperand x, byteOperand nn]
  | .draw x y n => [nibbleOperand x, nibbleOperand y, nibbleOperand n]
  | .skipIfKey x => [nibbleOperand x]
  | .skipIfNotKey x => [nibbleOperand x]
  | .getDelayTimer x => [nibbleOperand x]
  | .setDelayTimer x => [nibbleOperand x]
  | .addToIndex x => [nibbleOperand x]
  | .loadFontSprite x => [nibbleOperand x]
  | .storeBcd x => [nibbleOperand x]
  | .loadRegisters x => [nibbleOperand x]

/-- Every operand lies in the range of its field. -/
def operandsFit (os : List Operand) : Bool := os.all fun o => o.1 < o.2

/-- An instruction is well-formed when its operands fit their fields (R51, R53). -/
def Instr.wellFormed (i : Instr) : Bool := operandsFit i.operands

end Sys2Proof
end

