-- ==== Sys2Proof/Decode.lean ====
section
/-! DEFINITION. The decoder, a pure total function of the 16-bit word (30_encoding.md R55, R62); the encoder written from
the four-character patterns of R54; the opcode table's mask and match columns as data. -/

namespace Sys2Proof

/-- The decoder's tagged output (R62): one instruction with its fields, or Unrecognized carrying the word. -/
inductive Decoded where
  | instr (i : Instr)
  | unrecognized (w : Word)
  deriving DecidableEq, Repr

/-- `op`, bits 15:12 (R51). -/
def opField (w : Word) : BitVec 4 := w.extractLsb' 12 4

/-- `x`, bits 11:8 (R51). -/
def xField (w : Word) : Reg := (w.extractLsb' 8 4).toFin

/-- `y`, bits 7:4 (R51). -/
def yField (w : Word) : Reg := (w.extractLsb' 4 4).toFin

/-- `n`, bits 3:0 (R51). -/
def nField (w : Word) : BitVec 4 := w.extractLsb' 0 4

/-- `nn`, bits 7:0 (R51). -/
def nnField (w : Word) : Byte := w.extractLsb' 0 8

/-- `nnn`, bits 11:0 (R51). -/
def nnnField (w : Word) : Addr := w.extractLsb' 0 12

/-- The decode algorithm of R55, arm by arm. -/
def decode (w : Word) : Decoded :=
  match opField w with
  | 0x0#4 =>
    if w = 0x00E0#16 then .instr .clear
    else if w = 0x00EE#16 then .instr .ret
    else .unrecognized w
  | 0x1#4 => .instr (.jump (nnnField w))
  | 0x2#4 => .instr (.call (nnnField w))
  | 0x3#4 => .instr (.skipEqImm (xField w) (nnField w))
  | 0x4#4 => .instr (.skipNeqImm (xField w) (nnField w))
  | 0x5#4 => if nField w = 0x0#4 then .instr (.skipEqReg (xField w) (yField w)) else .unrecognized w
  | 0x6#4 => .instr (.setImm (xField w) (nnField w))
  | 0x7#4 => .instr (.addImm (xField w) (nnField w))
  | 0x8#4 =>
    match nField w with
    | 0x1#4 => .instr (.orReg (xField w) (yField w))
    | 0x2#4 => .instr (.andReg (xField w) (yField w))
    | 0x3#4 => .instr (.xorReg (xField w) (yField w))
    | 0x4#4 => .instr (.addReg (xField w) (yField w))
    | 0x5#4 => .instr (.subReg (xField w) (yField w))
    | 0x6#4 => .instr (.shr (xField w) (yField w))
    | 0xE#4 => .instr (.shl (xField w) (yField w))
    | _ => .unrecognized w
  | 0xA#4 => .instr (.setIndex (nnnField w))
  | 0xC#4 => .instr (.random (xField w) (nnField w))
  | 0xD#4 => .instr (.draw (xField w) (yField w) (nField w).toFin)
  | 0xE#4 =>
    match nnField w with
    | 0x9E#8 => .instr (.skipIfKey (xField w))
    | 0xA1#8 => .instr (.skipIfNotKey (xField w))
    | _ => .unrecognized w
  | 0xF#4 =>
    match nnField w with
    | 0x07#8 => .instr (.getDelayTimer (xField w))
    | 0x15#8 => .instr (.setDelayTimer (xField w))
    | 0x1E#8 => .instr (.addToIndex (xField w))
    | 0x29#8 => .instr (.loadFontSprite (xField w))
    | 0x33#8 => .instr (.storeBcd (xField w))
    | 0x65#8 => .instr (.loadRegisters (xField w))
    | _ => .unrecognized w
  | _ => .unrecognized w

/-- Two bytes as the word they make: the byte at the lower address is the high half (R33). -/
def wordOfBytes (hi lo : Byte) : Word := hi ++ lo

/-- The decoder on the two bytes of an instruction as they lie in memory (R33, R50). -/
def decodeBytes (hi lo : Byte) : Decoded := decode (wordOfBytes hi lo)

/-- A 4-bit field's bits. -/
def nibble (r : Fin 16) : BitVec 4 := BitVec.ofFin r

/-- A pattern of four nibbles, most significant first (R51). -/
def nibbles (a b c d : BitVec 4) : Word := a ++ b ++ c ++ d

/-- Formats XNN and X: `op`, `x`, and eight low bits (R52). -/
def formXNN (op : BitVec 4) (x : Reg) (nn : Byte) : Word := op ++ nibble x ++ nn

/-- Format NNN: `op` and the address (R52). -/
def formNNN (op : BitVec 4) (nnn : Addr) : Word := op ++ nnn

/-- The word of an instruction, from the patterns of R54. -/
def encode : Instr → Word
  | .clear => 0x00E0#16
  | .ret => 0x00EE#16
  | .jump nnn => formNNN 0x1#4 nnn
  | .call nnn => formNNN 0x2#4 nnn
  | .skipEqImm x nn => formXNN 0x3#4 x nn
  | .skipNeqImm x nn => formXNN 0x4#4 x nn
  | .skipEqReg x y => nibbles 0x5#4 (nibble x) (nibble y) 0x0#4
  | .setImm x nn => formXNN 0x6#4 x nn
  | .addImm x nn => formXNN 0x7#4 x nn
  | .orReg x y => nibbles 0x8#4 (nibble x) (nibble y) 0x1#4
  | .andReg x y => nibbles 0x8#4 (nibble x) (nibble y) 0x2#4
  | .xorReg x y => nibbles 0x8#4 (nibble x) (nibble y) 0x3#4
  | .addReg x y => nibbles 0x8#4 (nibble x) (nibble y) 0x4#4
  | .subReg x y => nibbles 0x8#4 (nibble x) (nibble y) 0x5#4
  | .shr x y => nibbles 0x8#4 (nibble x) (nibble y) 0x6#4
  | .shl x y => nibbles 0x8#4 (nibble x) (nibble y) 0xE#4
  | .setIndex nnn => formNNN 0xA#4 nnn
  | .random x nn => formXNN 0xC#4 x nn
  | .draw x y n => nibbles 0xD#4 (nibble x) (nibble y) (nibble n)
  | .skipIfKey x => formXNN 0xE#4 x 0x9E#8
  | .skipIfNotKey x => formXNN 0xE#4 x 0xA1#8
  | .getDelayTimer x => formXNN 0xF#4 x 0x07#8
  | .setDelayTimer x => formXNN 0xF#4 x 0x15#8
  | .addToIndex x => formXNN 0xF#4 x 0x1E#8
  | .loadFontSprite x => formXNN 0xF#4 x 0x29#8
  | .storeBcd x => formXNN 0xF#4 x 0x33#8
  | .loadRegisters x => formXNN 0xF#4 x 0x65#8

/-- One row of the opcode table: `w` selects it when `w & mask = value` (R54). -/
structure OpRow where
  mnemonic : String
  mask : Word
  value : Word
  deriving DecidableEq, Repr

/-- The row's selection test of R54. -/
def rowSelects (r : OpRow) (w : Word) : Bool := w &&& r.mask == r.value

/-- The row an instruction belongs to, with the mask and match columns of R54 as the spec prints them. -/
def rowOf : Instr → OpRow
  | .clear => ⟨"CLEAR", 0xFFFF#16, 0x00E0#16⟩
  | .ret => ⟨"RETURN", 0xFFFF#16, 0x00EE#16⟩
  | .jump _ => ⟨"JUMP", 0xF000#16, 0x1000#16⟩
  | .call _ => ⟨"CALL", 0xF000#16, 0x2000#16⟩
  | .skipEqImm _ _ => ⟨"SKIP_EQ_IMM", 0xF000#16, 0x3000#16⟩
  | .skipNeqImm _ _ => ⟨"SKIP_NEQ_IMM", 0xF000#16, 0x4000#16⟩
  | .skipEqReg _ _ => ⟨"SKIP_EQ_REG", 0xF00F#16, 0x5000#16⟩
  | .setImm _ _ => ⟨"SET_IMM", 0xF000#16, 0x6000#16⟩
  | .addImm _ _ => ⟨"ADD_IMM", 0xF000#16, 0x7000#16⟩
  | .orReg _ _ => ⟨"OR", 0xF00F#16, 0x8001#16⟩
  | .andReg _ _ => ⟨"AND", 0xF00F#16, 0x8002#16⟩
  | .xorReg _ _ => ⟨"XOR", 0xF00F#16, 0x8003#16⟩
  | .addReg _ _ => ⟨"ADD_REG", 0xF00F#16, 0x8004#16⟩
  | .subReg _ _ => ⟨"SUB_REG", 0xF00F#16, 0x8005#16⟩
  | .shr _ _ => ⟨"SHR", 0xF00F#16, 0x8006#16⟩
  | .shl _ _ => ⟨"SHL", 0xF00F#16, 0x800E#16⟩
  | .setIndex _ => ⟨"SET_INDEX", 0xF000#16, 0xA000#16⟩
  | .random _ _ => ⟨"RANDOM", 0xF000#16, 0xC000#16⟩
  | .draw _ _ _ => ⟨"DRAW", 0xF000#16, 0xD000#16⟩
  | .skipIfKey _ => ⟨"SKIP_IF_KEY", 0xF0FF#16, 0xE09E#16⟩
  | .skipIfNotKey _ => ⟨"SKIP_IF_NOT_KEY", 0xF0FF#16, 0xE0A1#16⟩
  | .getDelayTimer _ => ⟨"GET_DELAY_TIMER", 0xF0FF#16, 0xF007#16⟩
  | .setDelayTimer _ => ⟨"SET_DELAY_TIMER", 0xF0FF#16, 0xF015#16⟩
  | .addToIndex _ => ⟨"ADD_TO_INDEX", 0xF0FF#16, 0xF01E#16⟩
  | .loadFontSprite _ => ⟨"LOAD_FONT_SPRITE", 0xF0FF#16, 0xF029#16⟩
  | .storeBcd _ => ⟨"STORE_BCD", 0xF0FF#16, 0xF033#16⟩
  | .loadRegisters _ => ⟨"LOAD_REGISTERS", 0xF0FF#16, 0xF065#16⟩

/-- The complete opcode table, in its order (R54). -/
def opcodeTable : List OpRow :=
  [rowOf .clear, rowOf .ret, rowOf (.jump 0), rowOf (.call 0), rowOf (.skipEqImm 0 0), rowOf (.skipNeqImm 0 0),
    rowOf (.skipEqReg 0 0), rowOf (.setImm 0 0), rowOf (.addImm 0 0)] ++
  [rowOf (.orReg 0 0), rowOf (.andReg 0 0), rowOf (.xorReg 0 0), rowOf (.addReg 0 0), rowOf (.subReg 0 0),
    rowOf (.shr 0 0), rowOf (.shl 0 0)] ++
  [rowOf (.setIndex 0), rowOf (.random 0 0), rowOf (.draw 0 0 0), rowOf (.skipIfKey 0), rowOf (.skipIfNotKey 0)] ++
  [rowOf (.getDelayTimer 0), rowOf (.setDelayTimer 0), rowOf (.addToIndex 0), rowOf (.loadFontSprite 0),
    rowOf (.storeBcd 0), rowOf (.loadRegisters 0)]

/-- The two bytes of a table word as memory holds them: the first is at the lower address (R33). `nbits` of the bits are
given, every other bit is 0. -/
def tableBytes (nbits w : Nat) : Byte × Byte :=
  let bits := w % 2 ^ nbits
  (BitVec.ofNat 8 (bits / 256), BitVec.ofNat 8 bits)

/-- The instruction the decoder reads from a table word's bytes; none where it answers Unrecognized. -/
def decodeTableWord (nbits w : Nat) : Option Instr :=
  match decodeBytes (tableBytes nbits w).1 (tableBytes nbits w).2 with
  | .instr i => some i
  | .unrecognized _ => none

/-! ### Assembler syntax (30_encoding.md R60; decision D26) -/

/-- A hexadecimal digit as text. -/
def hexDigit (d : Nat) : String :=
  (["0", "1", "2", "3", "4", "5", "6", "7"] ++ ["8", "9", "A", "B", "C", "D", "E", "F"]).getD d ""

/-- A register's name, V0 to VF. -/
def regName (r : Reg) : String := "V" ++ hexDigit r.val

/-- An immediate as a two-digit hexadecimal number. -/
def byteText (nn : Byte) : String := "0x" ++ hexDigit (nn.toNat / 16) ++ hexDigit (nn.toNat % 16)

/-- An address as a three-digit hexadecimal number. -/
def addrText (nnn : Addr) : String :=
  "0x" ++ hexDigit (nnn.toNat / 256) ++ hexDigit (nnn.toNat / 16 % 16) ++ hexDigit (nnn.toNat % 16)

/-- A sprite height as a decimal number. -/
def heightText (n : Fin 16) : String := if n.val < 10 then hexDigit n.val else "1" ++ hexDigit (n.val - 10)

/-- The operands of an instruction as text, in the order of the opcode table's fields column. -/
def Instr.operandTexts : Instr → List String
  | .clear => []
  | .ret => []
  | .jump nnn => [addrText nnn]
  | .call nnn => [addrText nnn]
  | .skipEqImm x nn => [regName x, byteText nn]
  | .skipNeqImm x nn => [regName x, byteText nn]
  | .skipEqReg x y => [regName x, regName y]
  | .setImm x nn => [regName x, byteText nn]
  | .addImm x nn => [regName x, byteText nn]
  | .orReg x y => [regName x, regName y]
  | .andReg x y => [regName x, regName y]
  | .xorReg x y => [regName x, regName y]
  | .addReg x y => [regName x, regName y]
  | .subReg x y => [regName x, regName y]
  | .shr x y => [regName x, regName y]
  | .shl x y => [regName x, regName y]
  | .setIndex nnn => [addrText nnn]
  | .random x nn => [regName x, byteText nn]
  | .draw x y n => [regName x, regName y, heightText n]
  | .skipIfKey x => [regName x]
  | .skipIfNotKey x => [regName x]
  | .getDelayTimer x => [regName x]
  | .setDelayTimer x => [regName x]
  | .addToIndex x => [regName x]
  | .loadFontSprite x => [regName x]
  | .storeBcd x => [regName x]
  | .loadRegisters x => [regName x]

/-- The operands after the mnemonic: a space before the first, a comma and a space before each other one. -/
def operandList : List String → String
  | [] => ""
  | o :: os => " " ++ os.foldl (fun text p => text ++ ", " ++ p) o

/-- An instruction in the spec's own syntax: its name, then its operands separated by commas (R60, D26). -/
def Instr.assembly (i : Instr) : String := (rowOf i).mnemonic ++ operandList i.operandTexts

end Sys2Proof
end

