-- ==== Sys2Proof/Config.lean ====
section
/-! DEFINITION. The implementation parameters of R4, and the values the spec leaves open as constants without a body. -/

namespace Sys2Proof.Config

/-- MEM_SIZE (R4, R30). -/
abbrev memSize : Nat := 4096

/-- PC_RESET and PROGRAM_BASE, both 0x200 (R4, R13, R31). -/
abbrev programBase : Nat := 0x200

/-- PROGRAM_MAX_LEN = 4096 - 0x200 (R4, R183). -/
abbrev programMaxLen : Nat := 3584

/-- FB_WIDTH (R4, R16). -/
abbrev fbWidth : Nat := 64

/-- FB_HEIGHT (R4, R16). -/
abbrev fbHeight : Nat := 32

/-- TIMER_RATE, in ticks per second (R4, R144). -/
abbrev timerRate : Nat := 60

/-- FONT_BASE (R4, R36). -/
abbrev fontBase : Nat := 0x000

/-- GLYPH_BYTES (R4, R36). -/
abbrev glyphBytes : Nat := 5

/-- A free value: one less than TIME_UNITS_PER_SECOND, which R145 leaves OPEN (log entry 2). -/
opaque timeUnitsPred : Nat

/-- TIME_UNITS_PER_SECOND: some positive integer, nothing more is known of it (R4, R145, D21; log entry 2). -/
def timeUnitsPerSecond : Nat := timeUnitsPred + 1

/-- A free value: the time input of the first step after reset; R145 says the origin is arbitrary (log entry 3). -/
opaque timeAtReset : Nat

/-- A free value: by how much `now` grows between the step numbered by the argument and the next one.
It is a natural number because the environment guarantees that `now` never decreases (R145; log entry 1). -/
opaque elapsed : Nat → Nat

/-- A free value: the random byte of the step numbered by the argument (R109, U1; log entry 1). -/
opaque randomByte : Nat → Byte

end Sys2Proof.Config
end

