-- ==== Sys2Proof/Machine/State.lean ====
section
/-! DEFINITION. The machine's state as plain data (10_state.md), the ports of the Step operation (40_step_cycle.md R76, R83),
the host's operations as data (R70), and the state after Reset (R21, R180). -/

namespace Sys2Proof.Machine

/-- The status of a Step's result (R76, R150). None of the four stops the machine: each comes with a defined next state
(R78, R158). -/
inductive Status where
  /-- 0: the word was recognized and its instruction executed without fault -/
  | ok
  /-- 1: the word matches no pattern (R151) -/
  | unrecognized
  /-- 2: RETURN with an empty call stack (R152) -/
  | stackUnderflow
  /-- 3: CALL with a full call stack (R153) -/
  | stackOverflow
  deriving DecidableEq, Repr

/-- The result of LoadProgram (R150, R154, R183). -/
inductive LoadResult where
  /-- 0: the image was copied -/
  | ok
  /-- 1: the image is longer than 3584 bytes, nothing was written -/
  | loadOverflow
  deriving DecidableEq, Repr

/-- Reasons for a machine to stop with a fault. There are none: Step is total and always leaves a defined state (R78), and
the spec's own four faults are results of operations that complete (R150, R158; log entry 7). -/
inductive Fault where
  deriving DecidableEq, Repr

/-- Reasons not to give an operation a meaning. -/
inductive Refusal where
  /-- Raised by an arm of exec whose instruction has no meaning in this model. No arm of exec raises it. Safe. -/
  | notModelled (mnemonic : String)
  /-- Raised by the host operation SetKeyState with a key index above 15, which R80 puts outside the operation's domain and
  tells a model to refuse (U12; log entry 17). No instruction raises it. Safe. -/
  | keyIndexOutOfRange (index : Nat)
  deriving DecidableEq, Repr

/-- Memory as the list of the bytes that differ from the reset contents (R18, R30). -/
abbrev Memory := List Host.Cell

/-- 32 rows of 64 pixels, true = set (R16). -/
abbrev Framebuffer := Vector (Vector Bool 64) 32

/-- The state of the core (R3, R10 to R18) and, after it, the ports of the Step operation. -/
structure State where
  /-- V[0] to V[15]; V[15] is VF (R10, R11) -/
  v : Vector Byte 16
  /-- I, the index register (R12) -/
  i : Word
  /-- the program counter (R13) -/
  pc : Addr
  /-- S[0] to S[15], the call stack's entries (R14) -/
  stack : Vector Addr 16
  /-- SP, the call stack's depth, 0 to 16 (R14) -/
  sp : Fin 17
  /-- DT_value, the delay timer's last written value (R15) -/
  dtValue : Byte
  /-- DT_stamp, the time of that write (R15) -/
  dtStamp : Nat
  /-- FB, row by row (R16) -/
  fb : Framebuffer
  /-- K[0] to K[15], true = pressed (R17) -/
  keys : Vector Bool 16
  /-- Mem (R18) -/
  mem : Memory
  /-- input port: `now` of the step about to run (R83, R145) -/
  now : Nat
  /-- input port: `rnd` of the step about to run (R83, R109) -/
  rnd : Byte
  /-- the model's own counter of drawn inputs (log entry 1) -/
  draws : Nat
  /-- output port: the status the last Step returned (R76) -/
  status : Status
  /-- output port: the word the last Step returned (R76) -/
  word : Word
  deriving DecidableEq, Repr

/-- The host's operations (R70). Step carries its two inputs (R83). -/
inductive HostOp where
  /-- Reset (R180) -/
  | reset
  /-- LoadProgram (R183) -/
  | loadProgram (bytes : List Byte)
  /-- Step (R71, R83) -/
  | step (now : Nat) (rnd : Byte)
  /-- ReadFramebuffer (R81) -/
  | readFramebuffer
  /-- SetKeyState (R80) -/
  | setKeyState (index : Nat) (pressed : Bool)
  deriving DecidableEq, Repr

/-- What an operation returns to the host (R70). -/
inductive HostResult where
  /-- Reset and SetKeyState return nothing -/
  | done
  /-- the result of LoadProgram (R183) -/
  | loaded (r : LoadResult)
  /-- the pair a Step returns (R76) -/
  | stepped (status : Status) (word : Word)
  /-- the pixels ReadFramebuffer returns (R81) -/
  | pixels (fb : Framebuffer)
  deriving DecidableEq, Repr

/-- Every pixel 0 (R16, R130). -/
def clearedFramebuffer : Framebuffer := Vector.replicate 32 (Vector.replicate 64 false)

/-- The machine right after Reset (R21, R180). The spec gives no value for `stack`, `dtStamp` (log entries 4, 5) nor for the
ports (log entries 3, 6). -/
def State.reset : State where
  v := Vector.replicate 16 0x00#8
  i := 0x0000#16
  pc := 0x200#12
  stack := Vector.replicate 16 0x000#12
  sp := 0
  dtValue := 0x00#8
  dtStamp := 0
  fb := clearedFramebuffer
  keys := Vector.replicate 16 false
  mem := []
  now := Config.timeAtReset
  rnd := Config.randomByte 0
  draws := 1
  status := .ok
  word := 0x0000#16

end Sys2Proof.Machine
end

