-- ==== Sys2Proof/Machine/Ops.lean ====
section
/-! DEFINITION. The shared operations over memory, registers, the call stack, the framebuffer, the timer and the step's
ports. Every register and memory access of the machine goes through this file. -/

namespace Sys2Proof.Machine

/-! ### Memory (20_memory.md) -/

/-- The font table: 16 glyphs of 5 bytes, the digit `d` at `5 * d` (R36; general knowledge G1, log entry 9). -/
def fontTable : List Byte :=
  [0xF0, 0x90, 0x90, 0x90, 0xF0] ++ [0x20, 0x60, 0x20, 0x20, 0x70] ++
  [0xF0, 0x10, 0xF0, 0x80, 0xF0] ++ [0xF0, 0x10, 0xF0, 0x10, 0xF0] ++
  [0x90, 0x90, 0xF0, 0x10, 0x10] ++ [0xF0, 0x80, 0xF0, 0x10, 0xF0] ++
  [0xF0, 0x80, 0xF0, 0x90, 0xF0] ++ [0xF0, 0x10, 0x20, 0x40, 0x40] ++
  [0xF0, 0x90, 0xF0, 0x90, 0xF0] ++ [0xF0, 0x90, 0xF0, 0x10, 0xF0] ++
  [0xF0, 0x90, 0xF0, 0x90, 0x90] ++ [0xE0, 0x90, 0xE0, 0x90, 0xE0] ++
  [0xF0, 0x80, 0x80, 0x80, 0xF0] ++ [0xE0, 0x90, 0x90, 0x90, 0xE0] ++
  [0xF0, 0x80, 0xF0, 0x80, 0xF0] ++ [0xF0, 0x80, 0xF0, 0x80, 0x80]

/-- What an unlisted address reads as: the reset contents, the font table at 0x000 to 0x04F and 0x00 above it
(R21, R31, R36; decision D8, log entry 8). FONT_BASE is 0, so the table's index is the address. -/
def resetByte (a : Nat) : Byte := fontTable.getD a 0x00

/-- The canonical form: addresses in range and strictly rising, no entry equal to what its address reads as unlisted. -/
def Memory.wf : Memory → Bool
  | [] => true
  | [c] => c.1 < Config.memSize && c.2 != resetByte c.1
  | c :: d :: rest => c.1 < d.1 && c.2 != resetByte c.1 && Memory.wf (d :: rest)

/-- The byte listed for `a`, or the reset contents. -/
def Memory.lookup : Memory → Nat → Byte
  | [], a => resetByte a
  | (k, b) :: rest, a => if k = a then b else Memory.lookup rest a

/-- The list without any entry for `a`. -/
def Memory.erase : Memory → Nat → Memory
  | [], _ => []
  | (k, b) :: rest, a => if k = a then Memory.erase rest a else (k, b) :: Memory.erase rest a

/-- The list with an entry put in before the first higher address. -/
def Memory.insert : Memory → Nat → Byte → Memory
  | [], a, b => [(a, b)]
  | (k, c) :: rest, a, b => if a < k then (a, b) :: (k, c) :: rest else (k, c) :: Memory.insert rest a b

/-- MemRead(addr, 1) of R39: the byte at `addr mod 4096`. -/
def Memory.read (m : Memory) (addr : Nat) : Byte := m.lookup (addr % Config.memSize)

/-- MemWrite(addr, 1, b) of R39: write at `addr mod 4096`; writing the reset contents removes the entry. -/
def Memory.write (m : Memory) (addr : Nat) (b : Byte) : Memory :=
  let a := addr % Config.memSize
  if b = resetByte a then m.erase a else (m.erase a).insert a b

/-- The bytes written one after another from `addr` up (R183). -/
def Memory.writeBytes : Memory → Nat → List Byte → Memory
  | m, _, [] => m
  | m, addr, b :: bs => Memory.writeBytes (m.write addr b) (addr + 1) bs

/-- Read one byte of the machine's memory (R32, R39). -/
def State.readByte (s : State) (addr : Nat) : Byte := s.mem.read addr

/-- Write one byte of the machine's memory (R32, R37, R39). -/
def State.writeByte (s : State) (addr : Nat) (b : Byte) : State := { s with mem := s.mem.write addr b }

/-! ### Registers (10_state.md R10 to R13) -/

/-- Read V[r] (R10). -/
def State.reg (s : State) (r : Reg) : Byte := s.v[r]

/-- V[r] <- b (R10). -/
def State.setReg (s : State) (r : Reg) (b : Byte) : State := { s with v := s.v.set r b }

/-- VF is V[15] (R11). -/
def flagReg : Reg := 15

/-- Write the primary result and then the flag, so that with `x` = 15 the flag is what VF holds (R77, R111; log entry 12). -/
def State.setRegThenFlag (s : State) (x : Reg) (result flag : Byte) : State := (s.setReg x result).setReg flagReg flag

/-- I <- a (R12). -/
def State.setIndex (s : State) (a : Word) : State := { s with i := a }

/-- pc <- a (R13). -/
def State.setPc (s : State) (a : Addr) : State := { s with pc := a }

/-- pc <- (pc + 2) mod 4096 (R73, R96). -/
def State.advancePc (s : State) : State := s.setPc (s.pc + 2)

/-- A skip whose condition has been found: pc moves on by 2, or nothing happens (R96). -/
def State.skipIf (s : State) (condition : Bool) : State := if condition then s.advancePc else s

/-- V[0] to V[n - 1] loaded from the addresses `addr 0` to `addr (n - 1)`, every byte read from the state before
(R77, R124). -/
def State.loadRegs (s : State) (addr : Nat → Nat) : Nat → State
  | 0 => s
  | k + 1 => (s.loadRegs addr k).setReg (Fin.ofNat 16 k) (s.readByte (addr k))

/-! ### Call stack (10_state.md R14) -/

/-- Push of R14; none when the stack is full, where R14 raises StackOverflow. -/
def State.push (s : State) (a : Addr) : Option State :=
  if h : s.sp.val < 16 then
    some { s with stack := s.stack.set s.sp.val a, sp := ⟨s.sp.val + 1, by omega⟩ }
  else none

/-- Pop of R14: the entry and the state with the depth reduced; none when the stack is empty, where R14 raises
StackUnderflow. -/
def State.pop (s : State) : Option (Addr × State) :=
  if h : 0 < s.sp.val then
    some (s.stack[s.sp.val - 1]'(by omega), { s with sp := ⟨s.sp.val - 1, by omega⟩ })
  else none

/-! ### Framebuffer (10_state.md R16, 44_display.md R132) -/

/-- FB[x, y] (R16). -/
def Framebuffer.pixel (fb : Framebuffer) (x : Fin 64) (y : Fin 32) : Bool := fb[y][x]

/-- FB[x, y] <- FB[x, y] ^ 1 (R131). -/
def Framebuffer.toggle (fb : Framebuffer) (x : Fin 64) (y : Fin 32) : Framebuffer :=
  fb.set y (fb[y].set x (!fb[y][x]))

/-- A column coordinate modulo 64 (R132). -/
def wrapColumn (x : Nat) : Fin 64 := Fin.ofNat 64 x

/-- A row coordinate modulo 32 (R132). -/
def wrapRow (y : Nat) : Fin 32 := Fin.ofNat 32 y

/-- Sprite column `col` of a row byte: bit `7 - col`, the leftmost pixel is the most significant bit (R133; D19, G2,
log entry 15). -/
def spriteBit (b : Byte) (col : Nat) : Bool := b.getLsbD (7 - col)

/-- The framebuffer and the collision seen so far in a DRAW. -/
abbrev Drawing := Framebuffer × Bool

/-- One sprite column of one row: toggle the pixel where the sprite bit is 1, and note a pixel that was set (R131, R132). -/
def drawColumn (x0 y : Nat) (b : Byte) (d : Drawing) (col : Nat) : Drawing :=
  if spriteBit b col then
    let px := wrapColumn (x0 + col)
    let py := wrapRow y
    (d.1.toggle px py, d.2 || d.1.pixel px py)
  else d

/-- The eight columns of one sprite row (R131). -/
def drawRow (x0 y : Nat) (b : Byte) (d : Drawing) : Drawing := (List.range 8).foldl (drawColumn x0 y b) d

/-- The rows 0 to `n - 1` of a sprite whose row bytes are `row 0` to `row (n - 1)` (R131). -/
def drawRows (x0 y0 : Nat) (row : Nat → Byte) : Nat → Drawing → Drawing
  | 0, d => d
  | k + 1, d => drawRow x0 (y0 + k) (row k) (drawRows x0 y0 row k d)

/-! ### Keypad and delay timer (45_keypad_timer.md) -/

/-- K[k] (R17). -/
def State.keyDown (s : State) (k : Fin 16) : Bool := s.keys[k]

/-- Time units since the last write, 0 if `now` has gone back (R144, D21). -/
def elapsedUnits (stamp now : Nat) : Nat := if stamp ≤ now then now - stamp else 0

/-- Whole ticks of one sixtieth of a second in that time, rounded down (R144). -/
def wholeTicks (unitsPerSecond units : Nat) : Nat := units * Config.timerRate / unitsPerSecond

/-- DT_current of R144 for a given TIME_UNITS_PER_SECOND: the value less the ticks, not below 0. -/
def timerAt (unitsPerSecond : Nat) (value : Byte) (stamp now : Nat) : Byte :=
  let ticks := wholeTicks unitsPerSecond (elapsedUnits stamp now)
  if ticks ≤ value.toNat then BitVec.ofNat 8 (value.toNat - ticks) else 0

/-- DT_current(now) of the machine (R144). -/
def State.timerValue (s : State) : Byte := timerAt Config.timeUnitsPerSecond s.dtValue s.dtStamp s.now

/-- DT_value <- b, DT_stamp <- now (R143). -/
def State.setTimer (s : State) (b : Byte) : State := { s with dtValue := b, dtStamp := s.now }

/-! ### The step around execute (40_step_cycle.md) -/

/-- The word Fetch reads at pc (R33, R72). -/
def State.fetchWord (s : State) : Word := wordOfBytes (s.readByte s.pc.toNat) (s.readByte (s.pc.toNat + 1))

/-- Fetch: pc moves on by 2 before decode and execute, whatever the word is (R72, R73). The result that the step will
return starts as (Ok, word) (R71, R76). -/
def State.fetch (s : State) : State := { s.advancePc with status := .ok, word := s.fetchWord }

/-- `raise` of 00_scope.md section 6.2 for a step: taking a fault is reporting its status. Nothing is vectored, saved or
masked, and what the step has written stays, which at this point is fetch's advance of pc (R150 to R153, R158). -/
def State.raise (s : State) (fault : Status) : State := { s with status := fault }

/-- After a step the environment presents the inputs of the next one: a time that has not decreased and a random byte, both
free values (R83, R109, R145; log entry 1). -/
def State.drawInputs (s : State) : State :=
  { s with now := s.now + Config.elapsed s.draws, rnd := Config.randomByte s.draws, draws := s.draws + 1 }

/-- A step ends in the next state with its successor's inputs drawn, or stops as its instruction does. -/
def endStep (o : Host.Outcome State Fault Refusal) : Host.Outcome State Fault Refusal :=
  match o with
  | .next t => .next t.drawInputs
  | .fault r => .fault r
  | .refused r => .refused r

/-- The two bytes of a table word stored at pc, where the next step fetches (R33, R72; log entry 18). -/
def State.storeFetchWord (s : State) (nbits w : Nat) : State :=
  (s.writeByte s.pc.toNat (tableBytes nbits w).1).writeByte (s.pc.toNat + 1) (tableBytes nbits w).2

end Sys2Proof.Machine
end

