-- ==== Sys2Proof/Machine/Flags.lean ====
section
/-! DEFINITION. The values the flag-setting instructions write to VF (10_state.md R11, 42_alu.md R105 to R108, R111). -/

namespace Sys2Proof.Machine

/-- A flag as the whole register holds it: 0x00 or 0x01 (R11). -/
def flagByte (b : Bool) : Byte := if b then 0x01 else 0x00

/-- ADD_REG: carry out of bit 7, the exact sum is above 255 (R105). -/
def carryFlag (a b : Byte) : Byte := flagByte (255 < a.toNat + b.toNat)

/-- SUB_REG: 1 means NO borrow, `a >= b` (R106). -/
def noBorrowFlag (a b : Byte) : Byte := flagByte (b.toNat ≤ a.toNat)

/-- SHR: the bit shifted out, bit 0 (R107). -/
def shiftedOutRight (a : Byte) : Byte := flagByte (a.getLsbD 0)

/-- SHL: the bit shifted out, bit 7 (R108). -/
def shiftedOutLeft (a : Byte) : Byte := flagByte (a.getLsbD 7)

/-- DRAW: the collision flag (R131, R134). -/
def collisionFlag (c : Bool) : Byte := flagByte c

end Sys2Proof.Machine
end

