-- ==== Sys2Proof/Machine/Operands.lean ====
section
/-! DEFINITION. Operand forms: immediates, the nibble operands, and the one addressing mode (30_encoding.md R53,
43_index_memory.md R125). -/

namespace Sys2Proof.Machine

/-- A 12-bit address zero-extended to the index register's 16 bits (R53, R120; D34). -/
def zextAddr (nnn : Addr) : Word := nnn.setWidth 16

/-- A register's byte zero-extended to 16 bits (R121). -/
def zextByte (b : Byte) : Word := b.setWidth 16

/-- `b[3:0]`, the digit or key number of LOAD_FONT_SPRITE and the key skips (R122, R140; D17, D18, log entry 14). -/
def lowNibble (b : Byte) : Fin 16 := (b.extractLsb' 0 4).toFin

/-- EA(k) = (I + k) mod 4096, the sum formed without loss (R32, R125). -/
def State.indexed (s : State) (k : Nat) : Nat := (s.i.toNat + k) % Config.memSize

/-- The address of a digit's glyph, as the index register holds it (R36, R122). -/
def glyphAddr (digit : Fin 16) : Word := BitVec.ofNat 16 (Config.fontBase + Config.glyphBytes * digit.val)

/-- The hundreds digit of a byte (R123). -/
def hundreds (v : Byte) : Byte := BitVec.ofNat 8 (v.toNat / 100)

/-- The tens digit of a byte (R123). -/
def tens (v : Byte) : Byte := BitVec.ofNat 8 (v.toNat / 10 % 10)

/-- The ones digit of a byte (R123). -/
def ones (v : Byte) : Byte := BitVec.ofNat 8 (v.toNat % 10)

end Sys2Proof.Machine
end

