-- ==== Sys2Proof/Machine/Alu.lean ====
section
/-! DEFINITION. Register load, arithmetic, logic, shift and random instructions (42_alu.md). Operands are read before
anything is written, and a flag is written after the primary result (R77, R111). -/

namespace Sys2Proof.Machine

/-- SET_IMM (R100). -/
def execSetImm (x : Reg) (nn : Byte) (s : State) : Host.Outcome State Fault Refusal := .next (s.setReg x nn)

/-- ADD_IMM: the sum modulo 256, and no flag (R101; D28). -/
def execAddImm (x : Reg) (nn : Byte) (s : State) : Host.Outcome State Fault Refusal := .next (s.setReg x (s.reg x + nn))

/-- OR (R102). -/
def execOrReg (x y : Reg) (s : State) : Host.Outcome State Fault Refusal := .next (s.setReg x (s.reg x ||| s.reg y))

/-- AND (R103). -/
def execAndReg (x y : Reg) (s : State) : Host.Outcome State Fault Refusal := .next (s.setReg x (s.reg x &&& s.reg y))

/-- XOR (R104). -/
def execXorReg (x y : Reg) (s : State) : Host.Outcome State Fault Refusal := .next (s.setReg x (s.reg x ^^^ s.reg y))

/-- ADD_REG: the sum modulo 256, then VF <- carry (R105). -/
def execAddReg (x y : Reg) (s : State) : Host.Outcome State Fault Refusal :=
  .next (s.setRegThenFlag x (s.reg x + s.reg y) (carryFlag (s.reg x) (s.reg y)))

/-- SUB_REG: the difference modulo 256, then VF <- no borrow (R106). -/
def execSubReg (x y : Reg) (s : State) : Host.Outcome State Fault Refusal :=
  .next (s.setRegThenFlag x (s.reg x - s.reg y) (noBorrowFlag (s.reg x) (s.reg y)))

/-- SHR: V[x] shifted right with 0 filled in, then VF <- the old bit 0; `y` is decoded and ignored (R59, R107). -/
def execShr (x _y : Reg) (s : State) : Host.Outcome State Fault Refusal :=
  .next (s.setRegThenFlag x (s.reg x >>> 1) (shiftedOutRight (s.reg x)))

/-- SHL: V[x] shifted left with 0 filled in, then VF <- the old bit 7; `y` is decoded and ignored (R59, R108). -/
def execShl (x _y : Reg) (s : State) : Host.Outcome State Fault Refusal :=
  .next (s.setRegThenFlag x (s.reg x <<< 1) (shiftedOutLeft (s.reg x)))

/-- RANDOM: the step's random input under the mask (R83, R109). -/
def execRandom (x : Reg) (nn : Byte) (s : State) : Host.Outcome State Fault Refusal := .next (s.setReg x (s.rnd &&& nn))

end Sys2Proof.Machine
end

