-- ==== Sys2Proof/Machine/ControlFlow.lean ====
section
/-! DEFINITION. RETURN, JUMP, CALL and the three skips on registers and immediates (41_control_flow.md). In every meaning
`pc` is the value fetch left, the address of the instruction plus 2 (R73). -/

namespace Sys2Proof.Machine

/-- RETURN (R90): pop into pc; with an empty stack report StackUnderflow and change nothing else (R152; D6, log entry 11). -/
def execRet (s : State) : Host.Outcome State Fault Refusal :=
  match s.pop with
  | some (a, t) => .next (t.setPc a)
  | none => .next (s.raise .stackUnderflow)

/-- JUMP (R91). -/
def execJump (nnn : Addr) (s : State) : Host.Outcome State Fault Refusal := .next (s.setPc nnn)

/-- CALL (R92): push the address after the CALL and jump; with a full stack report StackOverflow and change nothing else
(R153; D5, log entry 11). -/
def execCall (nnn : Addr) (s : State) : Host.Outcome State Fault Refusal :=
  match s.push s.pc with
  | some t => .next (t.setPc nnn)
  | none => .next (s.raise .stackOverflow)

/-- SKIP_EQ_IMM (R93, R96). -/
def execSkipEqImm (x : Reg) (nn : Byte) (s : State) : Host.Outcome State Fault Refusal := .next (s.skipIf (s.reg x == nn))

/-- SKIP_NEQ_IMM (R94, R96). -/
def execSkipNeqImm (x : Reg) (nn : Byte) (s : State) : Host.Outcome State Fault Refusal := .next (s.skipIf (s.reg x != nn))

/-- SKIP_EQ_REG (R95, R96). -/
def execSkipEqReg (x y : Reg) (s : State) : Host.Outcome State Fault Refusal := .next (s.skipIf (s.reg x == s.reg y))

end Sys2Proof.Machine
end

