-- ==== Sys2Proof/Machine/Display.lean ====
section
/-! DEFINITION. CLEAR and DRAW, the two instructions of the framebuffer controller (44_display.md). -/

namespace Sys2Proof.Machine

/-- CLEAR: every pixel 0; VF is not written (R130). -/
def execClear (s : State) : Host.Outcome State Fault Refusal := .next { s with fb := clearedFramebuffer }

/-- The framebuffer and collision DRAW leaves, from the coordinates and the sprite bytes before the instruction
(R125, R131). -/
def State.drawing (s : State) (x y : Reg) (n : Nat) : Drawing :=
  drawRows (s.reg x).toNat (s.reg y).toNat (fun row => s.readByte (s.indexed row)) n (s.fb, false)

/-- DRAW: the sprite is XORed onto the pixels, then VF <- collision, also with `n` = 0 (R131, R134; D35). -/
def execDraw (x y : Reg) (n : Fin 16) (s : State) : Host.Outcome State Fault Refusal :=
  let d := s.drawing x y n.val
  .next (State.setReg { s with fb := d.1 } flagReg (collisionFlag d.2))

end Sys2Proof.Machine
end

