-- ==== Sys2Proof/Machine/IndexMemory.lean ====
section
/-! DEFINITION. Index register and memory instructions (43_index_memory.md). None of them writes the flag. -/

namespace Sys2Proof.Machine

/-- SET_INDEX (R120). -/
def execSetIndex (nnn : Addr) (s : State) : Host.Outcome State Fault Refusal := .next (s.setIndex (zextAddr nnn))

/-- ADD_TO_INDEX: the sum modulo 65536, and no flag (R121). -/
def execAddToIndex (x : Reg) (s : State) : Host.Outcome State Fault Refusal := .next (s.setIndex (s.i + zextByte (s.reg x)))

/-- LOAD_FONT_SPRITE (R122). -/
def execLoadFontSprite (x : Reg) (s : State) : Host.Outcome State Fault Refusal :=
  .next (s.setIndex (glyphAddr (lowNibble (s.reg x))))

/-- STORE_BCD: three whole bytes, hundreds first (R123, R125). -/
def execStoreBcd (x : Reg) (s : State) : Host.Outcome State Fault Refusal :=
  let v := s.reg x
  .next (((s.writeByte (s.indexed 0) (hundreds v)).writeByte (s.indexed 1) (tens v)).writeByte (s.indexed 2) (ones v))

/-- LOAD_REGISTERS: V[0] to V[x] from consecutive bytes, I unchanged (R124, R125). -/
def execLoadRegisters (x : Reg) (s : State) : Host.Outcome State Fault Refusal := .next (s.loadRegs s.indexed (x.val + 1))

end Sys2Proof.Machine
end

