-- ==== Sys2Proof/Machine/KeypadTimer.lean ====
section
/-! DEFINITION. Keypad and delay timer instructions (45_keypad_timer.md). None waits, none is privileged, none sets a flag. -/

namespace Sys2Proof.Machine

/-- SKIP_IF_KEY (R140, R96). -/
def execSkipIfKey (x : Reg) (s : State) : Host.Outcome State Fault Refusal :=
  .next (s.skipIf (s.keyDown (lowNibble (s.reg x))))

/-- SKIP_IF_NOT_KEY (R141, R96). -/
def execSkipIfNotKey (x : Reg) (s : State) : Host.Outcome State Fault Refusal :=
  .next (s.skipIf (!s.keyDown (lowNibble (s.reg x))))

/-- GET_DELAY_TIMER: the current value; the timer's own state is not written (R142, R144, R146). -/
def execGetDelayTimer (x : Reg) (s : State) : Host.Outcome State Fault Refusal := .next (s.setReg x s.timerValue)

/-- SET_DELAY_TIMER: the value and the step's time are recorded (R143). -/
def execSetDelayTimer (x : Reg) (s : State) : Host.Outcome State Fault Refusal := .next (s.setTimer (s.reg x))

end Sys2Proof.Machine
end

