-- ==== Sys2Proof/Machine/Cycle.lean ====
section
/-! DEFINITION. The step cycle: fetch, decode, execute, once, in that order (40_step_cycle.md R71). -/

namespace Sys2Proof.Machine

/-- What a step does with the decoder's output: execute the instruction, or report Unrecognized and execute nothing
(R71, R151). -/
def runDecoded (d : Decoded) (s : State) : Host.Outcome State Fault Refusal :=
  match d with
  | .instr i => exec i s
  | .unrecognized _ => .next (s.raise .unrecognized)

/-- Step(now, rnd) of R71 with its inputs on the state's input ports and its result on the output ports. -/
def cycle (s : State) : Host.Outcome State Fault Refusal := runDecoded (decode s.fetchWord) s.fetch

end Sys2Proof.Machine
end

