-- ==== Sys2Proof/Machine/Step.lean ====
section
/-! DEFINITION. One step of the machine: the cycle of R71, after which the inputs of the next step are drawn. -/

namespace Sys2Proof.Machine

/-- One Step operation, and the environment's inputs for the one after it (R71, R83). -/
def step (s : State) : Host.Outcome State Fault Refusal := endStep (cycle s)

/-- The state with a table word's bytes where the next step fetches (R33, R72). It stands for a LoadProgram that has put the
word there (R183; log entry 18). -/
def State.withFetchWord (s : State) (nbits w : Nat) : State := s.storeFetchWord nbits w

end Sys2Proof.Machine
end

