-- ==== Sys2Proof/Machine/HostOps.lean ====
section
/-! DEFINITION. The five operations through which the host drives the core (40_step_cycle.md R70, R80 to R82;
70_reset_and_hazards.md R180, R183, R188). Each is atomic and happens between steps (R82). -/

namespace Sys2Proof.Machine

/-- Reset at any time between steps: every piece of core state at its reset value (R180). Reset has no other effect, so the
ports stay: time does not restart (log entry 22). -/
def State.resetOp (s : State) : State :=
  { State.reset with now := s.now, rnd := s.rnd, draws := s.draws, status := s.status, word := s.word }

/-- LoadProgram: an image longer than 3584 bytes is refused whole, any other is copied from 0x200 up (R154, R183). -/
def State.loadProgram (s : State) (bytes : List Byte) : LoadResult × State :=
  if Config.programMaxLen < bytes.length then (.loadOverflow, s)
  else (.ok, { s with mem := s.mem.writeBytes Config.programBase bytes })

/-- The inputs of a Step put on the input ports (R83). -/
def State.withInputs (s : State) (now : Nat) (rnd : Byte) : State := { s with now := now, rnd := rnd }

/-- SetKeyState for a key of the domain, 0 to 15 (R80). -/
def State.setKey (s : State) (k : Fin 16) (pressed : Bool) : State := { s with keys := s.keys.set k pressed }

/-- An operation is in its domain: the key index of SetKeyState is 0 to 15, everything else is always allowed
(R80, R188). -/
def HostOp.wellFormed : HostOp → Bool
  | .reset => true
  | .loadProgram _ => true
  | .step _ _ => true
  | .readFramebuffer => true
  | .setKeyState index _ => index < 16

/-- The numeric code of a status (R76, R150; D7). -/
def Status.code : Status → Nat
  | .ok => 0
  | .unrecognized => 1
  | .stackUnderflow => 2
  | .stackOverflow => 3

/-- The numeric code of LoadProgram's result (R150; D7). -/
def LoadResult.code : LoadResult → Nat
  | .ok => 0
  | .loadOverflow => 1

/-- The outcome of a Step as the host sees it: the pair on the output ports (R76). -/
def steppedResult (o : Host.Outcome State Fault Refusal) : Host.Outcome (HostResult × State) Fault Refusal :=
  match o with
  | .next t => .next (.stepped t.status t.word, t)
  | .fault r => .fault r
  | .refused r => .refused r

/-- One host operation: what it returns and the state it leaves (R70). -/
def hostOp (op : HostOp) (s : State) : Host.Outcome (HostResult × State) Fault Refusal :=
  match op with
  | .reset => .next (.done, s.resetOp)
  | .loadProgram bytes => .next (.loaded (s.loadProgram bytes).1, (s.loadProgram bytes).2)
  | .step now rnd => steppedResult (cycle (s.withInputs now rnd))
  | .readFramebuffer => .next (.pixels s.fb, s)
  | .setKeyState index pressed =>
    if h : index < 16 then .next (.done, s.setKey ⟨index, h⟩ pressed) else .refused (.keyIndexOutOfRange index)

/-- A trace of the machine: a sequence of operations, one at a time (R82), with what each returned. -/
def runHost : List HostOp → State → Host.Outcome (List HostResult × State) Fault Refusal
  | [], s => .next ([], s)
  | op :: ops, s =>
    match hostOp op s with
    | .next (r, t) =>
      match runHost ops t with
      | .next (rs, u) => .next (r :: rs, u)
      | .fault f => .fault f
      | .refused f => .refused f
    | .fault f => .fault f
    | .refused f => .refused f

end Sys2Proof.Machine
end

