-- ==== Sys2Proof/Safety.lean ====
section
/-! DEFINITION. What claims about this machine are stated in: the invariant, a run whose steps all report Ok, the
environment's guarantee, and what two states may differ in. -/

namespace Sys2Proof.Machine

/-- The invariant every step keeps: memory is in its canonical form, and the timer's time stamp is not in the future, which
is the environment's guarantee of R145 seen from the last write (R143). -/
def State.Inv (s : State) : Prop := s.mem.wf = true ∧ s.dtStamp ≤ s.now

/-- The step answers a next state and reports Ok (R76). -/
def stepOk (s : State) : Bool :=
  match step s with
  | .next t => t.status == .ok
  | .fault _ => false
  | .refused _ => false

/-- The next `k` steps all report Ok: "every Step so far returned Ok", the usual premise of a claim about a program (U6). -/
def okFor : Nat → State → Bool
  | 0, _ => true
  | k + 1, s =>
    match step s with
    | .next t => t.status == .ok && okFor k t
    | .fault _ => false
    | .refused _ => false

/-- The environment's guarantee on a trace: `now` never decreases from one Step to a later one (R145, R184). -/
def timeRises : Nat → List HostOp → Bool
  | _, [] => true
  | t, .step now _ :: ops => t ≤ now && timeRises now ops
  | t, .reset :: ops => timeRises t ops
  | t, .loadProgram _ :: ops => timeRises t ops
  | t, .readFramebuffer :: ops => timeRises t ops
  | t, .setKeyState _ _ :: ops => timeRises t ops

/-- The two states are the same but for stack entries at and above the depth, which R14 calls unobservable. -/
def SameButDeadStack (s t : State) : Prop :=
  t = { s with stack := t.stack } ∧ ∀ k : Fin 16, k.val < s.sp.val → t.stack[k] = s.stack[k]

/-- The two states are the same but for the timer's time stamp, while the timer's value is 0 (R15, D29). -/
def SameButDeadStamp (s t : State) : Prop := t = { s with dtStamp := t.dtStamp } ∧ (s.dtValue = 0 ∨ t.dtStamp = s.dtStamp)

end Sys2Proof.Machine
end

