-- ==== Sys2Proof/Certificates/Slice0/Obligations.lean ====
section
/-! DEFINITION. The statements for the provers. `t = { s with v := t.v }` says that `t` is `s` in every field but `v`: every
byte of memory reads as before, and every other register, flag, stack entry, pixel, key and port is unchanged. Where the spec
marks a clause as its own decision (D<n>), derivation or general knowledge (G<n>), the docstring names the mark. -/

open Sys2Proof Sys2Proof.Machine

/-! ### Encoding (30_encoding.md) -/

/-- The decoder gives back every well-formed instruction with every operand at every value. The patterns' strictness is D11,
the fields' places are derived by the spec from the patterns. -/
def Obligations.DecodeOfEncodeIsTheInstruction : Prop :=
  ∀ i : Instr, i.wellFormed = true → decode (encode i) = .instr i

/-- A recognized word is the encoding of what it decodes to: the decoder drops no bit, the ignored `y` of SHR and SHL
included. D11. -/
def Obligations.EncodeOfDecodeIsTheWord : Prop :=
  ∀ (w : Word) (i : Instr), decode w = .instr i → encode i = w

/-- A word is recognized exactly when a row of the opcode table selects it, by `w & mask = match`; the row is then unique and is
the row of the decoded instruction. The rows' disjointness is derived by the spec; D11. -/
def Obligations.DecodeAgreesWithTheOpcodeTable : Prop :=
  ∀ w : Word,
    (∃ i, decode w = .instr i ∧ rowOf i ∈ opcodeTable ∧
      ∀ r ∈ opcodeTable, (w &&& r.mask = r.value ↔ r = rowOf i)) ∨
    (decode w = .unrecognized w ∧ ∀ r ∈ opcodeTable, w &&& r.mask ≠ r.value)

/-- The unrecognized words are exactly the ones the spec lists, by top nibble `op`, low nibble `n` and low byte `nn`. The list is
derived by the spec by enumeration; D11. -/
def Obligations.UnrecognizedWordsAreTheListedOnes : Prop :=
  ∀ w : Word,
    (∃ i, decode w = .instr i) ↔
      ¬ ((w.toNat / 4096 = 0x0 ∧ w ≠ 0x00E0#16 ∧ w ≠ 0x00EE#16) ∨
        (w.toNat / 4096 = 0x5 ∧ w.toNat % 16 ≠ 0x0) ∨
        (w.toNat / 4096 = 0x8 ∧ w.toNat % 16 ∈ [0x0, 0x7, 0x8, 0x9, 0xA, 0xB, 0xC, 0xD, 0xF]) ∨
        w.toNat / 4096 = 0x9 ∨ w.toNat / 4096 = 0xB ∨
        (w.toNat / 4096 = 0xE ∧ w.toNat % 256 ∉ [0x9E, 0xA1]) ∨
        (w.toNat / 4096 = 0xF ∧ w.toNat % 256 ∉ [0x07, 0x15, 0x1E, 0x29, 0x33, 0x65]))

/-- Words written out from the spec's patterns and its decode vectors W1 and T-DE, at least one for each family. -/
def Obligations.WordsWrittenOutDecodeAsTheSpecSays : Prop :=
  decode 0x1ABC#16 = .instr (.jump 0xABC#12) ∧ decode 0x00E0#16 = .instr .clear ∧
  decode 0xFFFF#16 = .unrecognized 0xFFFF#16 ∧ decode 0x3FFF#16 = .instr (.skipEqImm 15 0xFF#8) ∧
  decode 0x8125#16 = .instr (.subReg 1 2) ∧ decode 0x812E#16 = .instr (.shl 1 2) ∧
  decode 0xA123#16 = .instr (.setIndex 0x123#12) ∧ decode 0xF133#16 = .instr (.storeBcd 1) ∧
  decode 0xD125#16 = .instr (.draw 1 2 5) ∧ decode 0xE1A1#16 = .instr (.skipIfNotKey 1) ∧
  decode 0xF107#16 = .instr (.getDelayTimer 1) ∧ decode 0x5121#16 = .unrecognized 0x5121#16

/-! ### Memory (20_memory.md) -/

/-- MemRead and MemWrite: one byte at the address modulo 4096, and nothing else. -/
def Obligations.ReadAfterWriteIsByAddressModulo4096 : Prop :=
  ∀ (s : State) (a b : Nat) (x : Byte),
    s.readByte a = s.readByte (a % 4096) ∧
    (s.writeByte a x).readByte b = (if a % 4096 = b % 4096 then x else s.readByte b) ∧
    s.writeByte a x = { s with mem := (s.writeByte a x).mem }

/-- An out-of-range address wraps and is no fault, and only RETURN and CALL can report one: every other instruction completes in
every state and leaves the step's status as it was. -/
def Obligations.OnlyReturnAndCallCanFault : Prop :=
  (∀ (s : State) (k : Nat) (x : Byte), s.readByte (s.i.toNat + k) = s.readByte ((s.i.toNat + k) % 4096) ∧
    s.writeByte (s.i.toNat + k) x = s.writeByte ((s.i.toNat + k) % 4096) x) ∧
  ∀ (i : Instr) (s : State), i ≠ .ret → (∀ nnn, i ≠ .call nnn) →
    ∃ t, exec i s = .next t ∧ t.status = s.status

/-- The model's own claim about its data: two memories in canonical form that read the same everywhere are the same list. -/
def Obligations.CanonicalMemoryIsDeterminedByItsBytes : Prop :=
  ∀ m₁ m₂ : Memory, m₁.wf = true → m₂.wf = true → (∀ a, m₁.read a = m₂.read a) → m₁ = m₂

/-- A byte STORE_BCD stores is what the next fetch reads: an instruction stored over at pc is fetched as stored. The spec derives
this from its memory and fetch rules. -/
def Obligations.FetchSeesTheBytesJustStored : Prop :=
  ∀ (s : State) (x : Reg), s.indexed 0 = s.pc.toNat →
    ∃ t, exec (.storeBcd x) s = .next t ∧ t.pc = s.pc ∧
      t.fetchWord = wordOfBytes (hundreds (s.reg x)) (tens (s.reg x))

/-! ### The step cycle (40_step_cycle.md) -/

/-- Fetch reads a big-endian word at pc, adds 2 to pc modulo 4096, and changes nothing else of the core's state (the ports of the
step's result apart, log entry 6). The width of pc and its wrap are D2 (log entry 10). -/
def Obligations.FetchReadsBigEndianAndAdvancesPc : Prop :=
  ∀ s : State,
    s.fetchWord.toNat = 256 * (s.readByte s.pc.toNat).toNat + (s.readByte ((s.pc.toNat + 1) % 4096)).toNat ∧
    s.fetch.pc.toNat = (s.pc.toNat + 2) % 4096 ∧
    s.fetch = { s with pc := s.fetch.pc, status := s.fetch.status, word := s.fetch.word }

/-- A step runs the instruction that the two bytes at pc decode to, on the state with pc moved on by 2 and the result set to
(Ok, word); after it the inputs of the next step are drawn, which is the model's own part (log entry 1). A word that does not
decode is executed by nothing and reported. -/
def Obligations.StepRunsTheDecodedInstruction : Prop :=
  ∀ (s : State) (w : Word) (f : State),
    w = wordOfBytes (s.readByte s.pc.toNat) (s.readByte (s.pc.toNat + 1)) →
    f = { s with pc := s.pc + 2, status := .ok, word := w } →
    (∀ i, decode w = .instr i → ∃ t, exec i f = .next t ∧
      step s = .next { t with
        now := t.now + Config.elapsed t.draws, rnd := Config.randomByte t.draws, draws := t.draws + 1 }) ∧
    (∀ u, decode w = .unrecognized u →
      step s = .next { f with
        status := .unrecognized,
        now := f.now + Config.elapsed f.draws, rnd := Config.randomByte f.draws, draws := f.draws + 1 })

/-- The host's Step(now, rnd) is fetch, decode, execute on the given inputs and returns (status, word) with the fetched word:
Unrecognized without executing, else what execute leaves, where StackUnderflow comes only from RETURN on an empty stack and
StackOverflow only from CALL on a full one. The four statuses and the word in the result are D7, that nothing but pc changes on
Unrecognized D25, the depth of the stack D4; the inputs and the result are held on ports (log entries 1, 6). -/
def Obligations.HostStepReturnsStatusAndFetchedWord : Prop :=
  ∀ (s : State) (now : Nat) (rnd : Byte) (w : Word) (f : State),
    w = wordOfBytes (s.readByte s.pc.toNat) (s.readByte (s.pc.toNat + 1)) →
    f = { s with pc := s.pc + 2, now := now, rnd := rnd, status := .ok, word := w } →
    (∀ u, decode w = .unrecognized u →
      hostOp (.step now rnd) s = .next (.stepped .unrecognized w, { f with status := .unrecognized })) ∧
    (∀ i, decode w = .instr i → ∃ t, exec i f = .next t ∧
      hostOp (.step now rnd) s = .next (.stepped t.status w, t) ∧
      (t.status = .ok ∨ (i = .ret ∧ f.sp.val = 0 ∧ t.status = .stackUnderflow) ∨
        ∃ nnn, i = .call nnn ∧ f.sp.val = 16 ∧ t.status = .stackOverflow))

/-- Step is total: from every state, and so for every `now` and `rnd`, it answers a next state, and the host's Step with any
inputs returns a result. -/
def Obligations.EveryStepCompletes : Prop :=
  ∀ s : State, (∃ t, step s = .next t) ∧
    ∀ now rnd, ∃ status word t, hostOp (.step now rnd) s = .next (.stepped status word, t)

/-- An unrecognized word: only pc moves, by 2; the result reports Unrecognized and the word. That nothing else changes is D25;
that the next inputs are drawn is the model's own part (log entry 1). -/
def Obligations.UnrecognizedStepOnlyAdvancesPc : Prop :=
  ∀ s : State, (∀ i, decode s.fetchWord ≠ .instr i) →
    ∃ t, step s = .next t ∧ t.pc.toNat = (s.pc.toNat + 2) % 4096 ∧ t.status = .unrecognized ∧ t.word = s.fetchWord ∧
      t = { s with
        pc := t.pc, now := t.now, rnd := t.rnd, draws := t.draws, status := t.status, word := t.word }

/-- The result of a step is an output only: the next step is the same whatever the output ports hold. The ports are the model's
place for that output (log entry 6). -/
def Obligations.StepIgnoresThePreviousResult : Prop :=
  ∀ (s : State) (status : Status) (word : Word), step { s with status := status, word := word } = step s

/-- JUMP to its own address is an endless loop: the core's state is a fixed point of Step. The idiom is derived by the spec. -/
def Obligations.JumpToItselfChangesNothing : Prop :=
  ∀ s : State, s.fetchWord = encode (.jump s.pc) →
    ∃ t, step s = .next t ∧ t.status = .ok ∧
      t = { s with now := t.now, rnd := t.rnd, draws := t.draws, status := t.status, word := t.word }

/-- The time input never goes back from one step to the next: the environment's guarantee, which the model draws by (log
entry 1). -/
def Obligations.TimeInputNeverDecreases : Prop :=
  ∀ s t : State, step s = .next t → s.now ≤ t.now ∧ t.draws = s.draws + 1

/-! ### Invariants and unobservable state -/

/-- Every step keeps the invariant: memory stays in its canonical form and the timer's stamp is never in the future. The
canonical form is the model's own (log entry 8). -/
def Obligations.StepKeepsTheInvariant : Prop :=
  ∀ s t : State, s.Inv → step s = .next t → t.Inv

/-- The state after Reset meets the invariant. -/
def Obligations.ResetMeetsTheInvariant : Prop := State.reset.Inv

/-- Every host operation keeps the invariant, a Step as long as the host keeps the guarantee that `now` does not go back. -/
def Obligations.HostOperationsKeepTheInvariant : Prop :=
  ∀ (op : HostOp) (s t : State) (r : HostResult),
    s.Inv → (∀ now rnd, op = .step now rnd → s.now ≤ now) → hostOp op s = .next (r, t) → t.Inv

/-- Stack entries at and above the depth cannot be observed: two states that differ only there step to two states that differ
only there. Depth and entry width are D4. -/
def Obligations.EntriesAboveTheDepthAreUnobservable : Prop :=
  ∀ s t s' : State, SameButDeadStack s t → step s = .next s' → ∃ t', step t = .next t' ∧ SameButDeadStack s' t'

/-- The timer's stamp cannot be observed while the timer's value is 0: two states that differ only in it step to two states that
differ at most in it, with the value still 0. D29. -/
def Obligations.StampOfAZeroTimerIsUnobservable : Prop :=
  ∀ s t s' : State, SameButDeadStamp s t → step s = .next s' → ∃ t', step t = .next t' ∧ SameButDeadStamp s' t'

/-! ### Reset, load and the other host operations (70_reset_and_hazards.md, 40_step_cycle.md section 4) -/

/-- What Reset leaves: registers, I and the timer 0, pc 0x200, the stack empty, every pixel 0, every key released, the font
table at 0x000 to 0x04F and 0x00 above it. The keys are D22, the zero memory D8, the font bytes G1. -/
def Obligations.ResetLeavesTheListedValues : Prop :=
  ∀ s u : State, u = s.resetOp →
    (∀ r, u.reg r = 0) ∧ u.i = 0 ∧ u.pc = 0x200#12 ∧ u.sp.val = 0 ∧ u.dtValue = 0 ∧
    (∀ x y, u.fb.pixel x y = false) ∧ (∀ k, u.keyDown k = false) ∧
    (∀ a, a < 0x50 → u.readByte a = fontTable.getD a 0) ∧ (∀ a, 0x50 ≤ a → a < 4096 → u.readByte a = 0) ∧
    u.now = s.now ∧ u.rnd = s.rnd ∧ u.status = s.status ∧ u.word = s.word

/-- The entry point is fixed: after Reset, in whatever state it is applied, and after any successful load, the next step fetches
the word at 0x200 and 0x201. -/
def Obligations.FirstFetchAfterResetIsAt0x200 : Prop :=
  ∀ s : State,
    s.resetOp.fetchWord = wordOfBytes (s.resetOp.readByte 0x200) (s.resetOp.readByte 0x201) ∧
    ∀ (b₀ b₁ : Byte) (rest : List Byte) (t : State),
      s.resetOp.loadProgram (b₀ :: b₁ :: rest) = (.ok, t) → t.pc = 0x200#12 ∧ t.fetchWord = wordOfBytes b₀ b₁

/-- A load of at most 3584 bytes copies them to 0x200 and up, and changes nothing else. D7, D23. -/
def Obligations.LoadProgramCopiesFrom0x200 : Prop :=
  ∀ (s : State) (bytes : List Byte), bytes.length ≤ 3584 →
    ∃ t, hostOp (.loadProgram bytes) s = .next (.loaded .ok, t) ∧
      (∀ k, k < bytes.length → t.readByte (0x200 + k) = bytes.getD k 0) ∧
      (∀ a, a < 4096 → (a < 0x200 ∨ 0x200 + bytes.length ≤ a) → t.readByte a = s.readByte a) ∧
      t = { s with mem := t.mem }

/-- A load of more than 3584 bytes returns LoadOverflow and changes nothing. The result code is D7, the unchanged state D23 (log
entry 18). -/
def Obligations.LoadOverflowWritesNothing : Prop :=
  ∀ (s : State) (bytes : List Byte), 3584 < bytes.length →
    hostOp (.loadProgram bytes) s = .next (.loaded .loadOverflow, s)

/-- ReadFramebuffer returns every pixel and changes nothing; SetKeyState writes one key and nothing else, and an index above 15 is
refused. The index domain is D22, the indexing of the view D27. -/
def Obligations.HostReadsPixelsAndWritesOneKey : Prop :=
  ∀ s : State, hostOp .readFramebuffer s = .next (.pixels s.fb, s) ∧
    (∀ (k : Fin 16) (p : Bool), ∃ t, hostOp (.setKeyState k.val p) s = .next (.done, t) ∧
      (∀ j, t.keyDown j = if j = k then p else s.keyDown j) ∧ t = { s with keys := t.keys }) ∧
    ∀ (k : Nat) (p : Bool), 16 ≤ k → hostOp (.setKeyState k p) s = .refused (.keyIndexOutOfRange k)

/-! ### Control transfer (41_control_flow.md) -/

/-- RETURN: with something on the stack, pc becomes the top entry and the depth goes down by 1; with an empty stack the step
reports StackUnderflow and nothing else changes. The state left by the fault is D6, the stack's size D4. -/
def Obligations.ReturnPopsIntoPcOrReportsUnderflow : Prop :=
  ∀ s : State,
    (∀ (k : Fin 16), s.sp.val = k.val + 1 → ∃ t, exec .ret s = .next t ∧ t.pc = s.stack[k] ∧ t.sp.val = k.val ∧
      t = { s with pc := t.pc, sp := t.sp }) ∧
    (s.sp.val = 0 → ∃ t, exec .ret s = .next t ∧ t = { s with status := .stackUnderflow })

/-- RETURN completes on every state with an entry on the stack: the next state is the one before it with pc at the top entry and
the depth one less. The stack's size is D4. -/
def Obligations.ReturnCompletesWithAnEntryOnTheStack : Prop :=
  ∀ (s : State) (k : Fin 16), s.sp.val = k.val + 1 →
    exec .ret s = .next { s with pc := s.stack[k], sp := ⟨k.val, by omega⟩ }

/-- CALL: with room on the stack, pc (the address after the CALL) is pushed and pc becomes the operand; with a full stack the step
reports StackOverflow and nothing else changes. The state left by the fault is D5, the stack's size D4. -/
def Obligations.CallPushesPcAndJumpsOrReportsOverflow : Prop :=
  ∀ (s : State) (nnn : Addr),
    (∀ (k : Fin 16), s.sp.val = k.val → ∃ t, exec (.call nnn) s = .next t ∧ t.pc = nnn ∧ t.sp.val = k.val + 1 ∧
      (∀ j : Fin 16, t.stack[j] = if j = k then s.pc else s.stack[j]) ∧
      t = { s with pc := t.pc, stack := t.stack, sp := t.sp }) ∧
    (s.sp.val = 16 → ∃ t, exec (.call nnn) s = .next t ∧ t = { s with status := .stackOverflow })

/-- CALL then RETURN: whatever the subroutine did, CALL and RETURN pairs of its own included, a RETURN at the depth the CALL left
and with the CALL's own entry as it left it resumes at the address after the CALL, at the depth before it. The stack's size is
D4. -/
def Obligations.ReturnResumesAfterTheCall : Prop :=
  ∀ (s t u : State) (nnn : Addr) (k : Fin 16),
    s.sp.val = k.val → exec (.call nnn) s = .next t → u.sp = t.sp → u.stack[k] = t.stack[k] →
    ∃ r, exec .ret u = .next r ∧ r.pc = s.pc ∧ r.sp = s.sp ∧ r = { u with pc := r.pc, sp := r.sp }

/-- JUMP sets pc to its operand and changes nothing else. D31. -/
def Obligations.JumpSetsPc : Prop :=
  ∀ (s : State) (nnn : Addr), ∃ t, exec (.jump nnn) s = .next t ∧ t = { s with pc := nnn }

/-- The five skips: each either adds 2 to pc modulo 4096 or does nothing, and writes nothing else. -/
def Obligations.SkipsAddTwoToPcOrDoNothing : Prop :=
  ∀ (s : State) (i : Instr),
    ((∃ x nn, i = .skipEqImm x nn) ∨ (∃ x nn, i = .skipNeqImm x nn) ∨ (∃ x y, i = .skipEqReg x y) ∨
      (∃ x, i = .skipIfKey x) ∨ ∃ x, i = .skipIfNotKey x) →
    ∃ t, exec i s = .next t ∧ t = { s with pc := t.pc } ∧
      (t.pc.toNat = (s.pc.toNat + 2) % 4096 ∨ t.pc = s.pc)

/-- When each skip on registers and immediates skips: SKIP_EQ_IMM on V[x] = nn, SKIP_NEQ_IMM on V[x] other than nn, SKIP_EQ_REG on
V[x] = V[y]. The conditions are D31. -/
def Obligations.RegisterSkipsTestTheirConditions : Prop :=
  ∀ (s : State) (x y : Reg) (nn : Byte), ∃ t₁ t₂ t₃,
    exec (.skipEqImm x nn) s = .next t₁ ∧ exec (.skipNeqImm x nn) s = .next t₂ ∧ exec (.skipEqReg x y) s = .next t₃ ∧
    t₁ = (if s.reg x = nn then { s with pc := s.pc + 2 } else s) ∧
    t₂ = (if s.reg x = nn then s else { s with pc := s.pc + 2 }) ∧
    t₃ = (if s.reg x = s.reg y then { s with pc := s.pc + 2 } else s)

/-! ### Registers, arithmetic, logic, shift, random (42_alu.md) -/

/-- SET_IMM loads the immediate and ADD_IMM adds it modulo 256, in V[x] alone: VF gets no carry. D28, D31. -/
def Obligations.ImmediatesAreLoadedAndAddedWithoutFlag : Prop :=
  ∀ (s : State) (x : Reg) (nn : Byte),
    (∃ t, exec (.setImm x nn) s = .next t ∧ (∀ r, t.reg r = if r = x then nn else s.reg r) ∧ t = { s with v := t.v }) ∧
    ∃ t, exec (.addImm x nn) s = .next t ∧
      (∀ r, (t.reg r).toNat = if r = x then ((s.reg x).toNat + nn.toNat) % 256 else (s.reg r).toNat) ∧
      t = { s with v := t.v }

/-- OR, AND, XOR act bit by bit on V[x] and V[y] into V[x]; VF is not written as a side effect. D12, D13, D31, G3. -/
def Obligations.LogicActsBitwiseWithoutFlag : Prop :=
  ∀ (s : State) (x y : Reg), ∃ t₁ t₂ t₃,
    exec (.orReg x y) s = .next t₁ ∧ exec (.andReg x y) s = .next t₂ ∧ exec (.xorReg x y) s = .next t₃ ∧
    (∀ k, k < 8 → (t₁.reg x).getLsbD k = ((s.reg x).getLsbD k || (s.reg y).getLsbD k) ∧
      (t₂.reg x).getLsbD k = ((s.reg x).getLsbD k && (s.reg y).getLsbD k) ∧
      (t₃.reg x).getLsbD k = ((s.reg x).getLsbD k != (s.reg y).getLsbD k)) ∧
    (∀ r, r ≠ x → t₁.reg r = s.reg r ∧ t₂.reg r = s.reg r ∧ t₃.reg r = s.reg r) ∧
    t₁ = { s with v := t₁.v } ∧ t₂ = { s with v := t₂.v } ∧ t₃ = { s with v := t₃.v }

/-- ADD_REG: V[x] gets the sum modulo 256 and then VF gets 1 if the exact sum is above 255, else 0; with `x` = 15 the flag is
what VF holds. D12, D14, G3. -/
def Obligations.AddRegSumsThenSetsCarry : Prop :=
  ∀ (s : State) (x y : Reg), ∃ t, exec (.addReg x y) s = .next t ∧
    (t.reg 15).toNat = (if 255 < (s.reg x).toNat + (s.reg y).toNat then 1 else 0) ∧
    (x ≠ 15 → (t.reg x).toNat = ((s.reg x).toNat + (s.reg y).toNat) % 256) ∧
    (∀ r, r ≠ x → r ≠ 15 → t.reg r = s.reg r) ∧ t = { s with v := t.v }

/-- SUB_REG: V[x] gets the difference modulo 256 and then VF gets 1 if there was no borrow, else 0; with `x` = 15 the flag is
what VF holds. D12, D14, G3. -/
def Obligations.SubRegSubtractsThenSetsNoBorrow : Prop :=
  ∀ (s : State) (x y : Reg), ∃ t, exec (.subReg x y) s = .next t ∧
    (t.reg 15).toNat = (if (s.reg y).toNat ≤ (s.reg x).toNat then 1 else 0) ∧
    (x ≠ 15 → (t.reg x).toNat = ((s.reg x).toNat + 256 - (s.reg y).toNat) % 256) ∧
    (∀ r, r ≠ x → r ≠ 15 → t.reg r = s.reg r) ∧ t = { s with v := t.v }

/-- SHR and SHL shift V[x] by one bit, fill with 0 and put the bit shifted out in VF last; V[y] plays no part. D14, D15, G6. -/
def Obligations.ShiftsMoveOneBitIntoTheFlag : Prop :=
  ∀ (s : State) (x y : Reg),
    (∃ t, exec (.shr x y) s = .next t ∧ (t.reg 15).toNat = (s.reg x).toNat % 2 ∧
      (x ≠ 15 → (t.reg x).toNat = (s.reg x).toNat / 2) ∧
      (∀ r, r ≠ x → r ≠ 15 → t.reg r = s.reg r) ∧ t = { s with v := t.v }) ∧
    ∃ t, exec (.shl x y) s = .next t ∧ (t.reg 15).toNat = (s.reg x).toNat / 128 ∧
      (x ≠ 15 → (t.reg x).toNat = 2 * (s.reg x).toNat % 256) ∧
      (∀ r, r ≠ x → r ≠ 15 → t.reg r = s.reg r) ∧ t = { s with v := t.v }

/-- RANDOM: V[x] gets the step's random byte under the mask, whatever that byte is, so a subset of the mask's bits. That the
byte is an input of the step is D20. -/
def Obligations.RandomMasksTheStepsRandomByte : Prop :=
  ∀ (s : State) (x : Reg) (nn rnd : Byte), ∃ t, exec (.random x nn) { s with rnd := rnd } = .next t ∧
    (∀ k, k < 8 → (t.reg x).getLsbD k = (rnd.getLsbD k && nn.getLsbD k)) ∧
    (∀ r, r ≠ x → t.reg r = s.reg r) ∧ t = { s with v := t.v, rnd := rnd }

/-! ### Index register and memory instructions (43_index_memory.md) -/

/-- SET_INDEX, ADD_TO_INDEX and LOAD_FONT_SPRITE write I alone: the operand zero-extended, the sum modulo 65536 without a flag, five
times the low nibble. D16, D17, D31, D34. -/
def Obligations.IndexInstructionsWriteIndexAlone : Prop :=
  ∀ (s : State) (x : Reg) (nnn : Addr), ∃ t₁ t₂ t₃,
    exec (.setIndex nnn) s = .next t₁ ∧ exec (.addToIndex x) s = .next t₂ ∧ exec (.loadFontSprite x) s = .next t₃ ∧
    t₁.i.toNat = nnn.toNat ∧ t₁ = { s with i := t₁.i } ∧
    t₂.i.toNat = (s.i.toNat + (s.reg x).toNat) % 65536 ∧ t₂ = { s with i := t₂.i } ∧
    t₃.i.toNat = 5 * ((s.reg x).toNat % 16) ∧ t₃ = { s with i := t₃.i }

/-- STORE_BCD stores the hundreds, tens and ones of V[x] as whole bytes at I, I + 1, I + 2 modulo 4096, and every other byte and
every other piece of state is unchanged. That I is unchanged is D36 (log entry 16), that a store below 0x050 takes effect D10 (log
entry 10). -/
def Obligations.StoreBcdStoresThreeDigits : Prop :=
  ∀ (s : State) (x : Reg), ∃ t, exec (.storeBcd x) s = .next t ∧
    (t.readByte (s.indexed 0)).toNat = (s.reg x).toNat / 100 ∧
    (t.readByte (s.indexed 1)).toNat = (s.reg x).toNat / 10 % 10 ∧
    (t.readByte (s.indexed 2)).toNat = (s.reg x).toNat % 10 ∧
    (∀ a, a < 4096 → (∀ k, k < 3 → a ≠ (s.i.toNat + k) % 4096) → t.readByte a = s.readByte a) ∧
    (∀ k, s.indexed k = (s.i.toNat + k) % 4096) ∧ t = { s with mem := t.mem }

/-- LOAD_REGISTERS loads V[0] to V[x] from the bytes at I to I + x modulo 4096; the registers above x, I and memory are
unchanged. -/
def Obligations.LoadRegistersLoadsUpToX : Prop :=
  ∀ (s : State) (x : Reg), ∃ t, exec (.loadRegisters x) s = .next t ∧
    (∀ r : Reg, t.reg r = if r.val ≤ x.val then s.readByte ((s.i.toNat + r.val) % 4096) else s.reg r) ∧
    t = { s with v := t.v }

/-! ### Display (44_display.md) -/

/-- CLEAR sets every pixel to 0 and changes nothing else. D13, D31. -/
def Obligations.ClearUnsetsEveryPixel : Prop :=
  ∀ s : State, ∃ t, exec .clear s = .next t ∧ (∀ px py, t.fb.pixel px py = false) ∧ t = { s with fb := t.fb }

/-- DRAW toggles exactly the pixels under a set sprite bit, at (V[x] + column) modulo 64 and (V[y] + row) modulo 32, each axis on its
own; the sprite's rows are the bytes at I, I + 1, ... modulo 4096, bit 7 leftmost; VF and pixels are all it writes. D14, D19,
D35, D36, G2. -/
def Obligations.DrawTogglesThePixelsUnderTheSprite : Prop :=
  ∀ (s : State) (x y : Reg) (n : Fin 16), ∃ t, exec (.draw x y n) s = .next t ∧
    (∀ px py, t.fb.pixel px py = !s.fb.pixel px py ↔
      ∃ row col : Nat, row < n.val ∧ col < 8 ∧
        (s.readByte ((s.i.toNat + row) % 4096)).getLsbD (7 - col) = true ∧
        px.val = ((s.reg x).toNat + col) % 64 ∧ py.val = ((s.reg y).toNat + row) % 32) ∧
    (∀ r, r ≠ 15 → t.reg r = s.reg r) ∧ t = { s with v := t.v, fb := t.fb }

/-- The collision flag is over the whole draw: VF is 1 when some pixel went from set to unset, and 0 when none did, a draw of
height 0 included, which is D35 (log entry 15). -/
def Obligations.DrawFlagsAnyPixelThatWentUnset : Prop :=
  ∀ (s : State) (x y : Reg) (n : Fin 16), ∃ t, exec (.draw x y n) s = .next t ∧
    ((∃ px py, s.fb.pixel px py = true ∧ t.fb.pixel px py = false) → t.reg 15 = 1) ∧
    ((∀ px py, s.fb.pixel px py = true → t.fb.pixel px py = true) → t.reg 15 = 0)

/-- Drawing the same sprite twice at the same place restores the framebuffer; on a framebuffer that was clear, the second draw sets
VF exactly when the first one set a pixel. D14, D19, D36. -/
def Obligations.DrawingTwiceRestoresThePixels : Prop :=
  ∀ (s t u : State) (x y : Reg) (n : Fin 16),
    exec (.draw x y n) s = .next t → t.reg x = s.reg x → t.reg y = s.reg y → exec (.draw x y n) t = .next u →
    u.fb = s.fb ∧ ((∀ px py, s.fb.pixel px py = false) → (u.reg 15 = 1 ↔ ∃ px py, t.fb.pixel px py = true))

/-! ### Keypad and delay timer (45_keypad_timer.md) -/

/-- SKIP_IF_KEY skips when the key named by V[x] is down, SKIP_IF_NOT_KEY when it is up; the key index is the low nibble of V[x].
D18, D22. -/
def Obligations.KeySkipsTestTheKeyNamedByX : Prop :=
  ∀ (s : State) (x : Reg) (k : Fin 16), (s.reg x).toNat % 16 = k.val → ∃ t₁ t₂,
    exec (.skipIfKey x) s = .next t₁ ∧ exec (.skipIfNotKey x) s = .next t₂ ∧
    t₁ = (if s.keys[k] = true then { s with pc := s.pc + 2 } else s) ∧
    t₂ = (if s.keys[k] = true then s else { s with pc := s.pc + 2 })

/-- GET_DELAY_TIMER puts in V[x] the stored value less the whole sixtieths of a second since the stamp, not below 0, and writes
nothing else, for whatever TIME_UNITS_PER_SECOND is. D21, D31. -/
def Obligations.GetDelayTimerReadsTheDecayedValue : Prop :=
  ∀ (s : State) (x : Reg), 0 < Config.timeUnitsPerSecond ∧ ∃ t, exec (.getDelayTimer x) s = .next t ∧
    (t.reg x).toNat = s.dtValue.toNat - (s.now - s.dtStamp) * 60 / Config.timeUnitsPerSecond ∧
    (∀ r, r ≠ x → t.reg r = s.reg r) ∧ t = { s with v := t.v }

/-- SET_DELAY_TIMER records V[x] and the step's time, and writes nothing else. D31. -/
def Obligations.SetDelayTimerRecordsValueAndTime : Prop :=
  ∀ (s : State) (x : Reg), ∃ t, exec (.setDelayTimer x) s = .next t ∧
    t = { s with dtValue := s.reg x, dtStamp := s.now }

/-- The timer as the spec states it: a read changes no timer state; what it returns depends on the last write and on `now` alone,
whatever else the two states hold; later reads are never higher, and once 0 they stay 0, until the next write. -/
def Obligations.TimerReadsOnlyDecay : Prop :=
  ∀ (s u : State) (x y : Reg), u.dtValue = s.dtValue → u.dtStamp = s.dtStamp →
    ∃ t v, exec (.getDelayTimer x) s = .next t ∧ exec (.getDelayTimer y) u = .next v ∧
      t.dtValue = s.dtValue ∧ t.dtStamp = s.dtStamp ∧
      (u.now = s.now → v.reg y = t.reg x) ∧
      (s.now ≤ u.now → (v.reg y).toNat ≤ (t.reg x).toNat ∧ (t.reg x = 0 → v.reg y = 0))

/-! ### The whole machine -/

/-- Who writes what: each piece of state is changed only by the instructions the spec lists for it; in particular a general
register changes only as the destination of one of the twelve that have one, or as VF in the five that set the flag; every byte of
memory reads as before for every instruction but STORE_BCD; no instruction writes the keys, the step's inputs or its word; and
the status, a port of the model (log entry 6), changes only in RETURN and CALL. The spec derives the list from its instruction
rules; destinations are D12, D31 and G3, the five flag setters D13, that DRAW and STORE_BCD leave I alone D36. -/
def Obligations.EachStateIsWrittenOnlyByItsInstructions : Prop :=
  ∀ (i : Instr) (s t : State), exec i s = .next t →
    (∀ r, t.reg r ≠ s.reg r →
      (∃ nn, i = .setImm r nn) ∨ (∃ nn, i = .addImm r nn) ∨ (∃ y, i = .orReg r y) ∨ (∃ y, i = .andReg r y) ∨
      (∃ y, i = .xorReg r y) ∨ (∃ y, i = .addReg r y) ∨ (∃ y, i = .subReg r y) ∨ (∃ y, i = .shr r y) ∨
      (∃ y, i = .shl r y) ∨ (∃ nn, i = .random r nn) ∨ i = .getDelayTimer r ∨
      (∃ x, i = .loadRegisters x ∧ r.val ≤ x.val) ∨
      (r = 15 ∧ ((∃ x y, i = .addReg x y) ∨ (∃ x y, i = .subReg x y) ∨ (∃ x y, i = .shr x y) ∨ (∃ x y, i = .shl x y) ∨
        ∃ x y n, i = .draw x y n))) ∧
    ((∀ x, i ≠ .storeBcd x) → ∀ a, t.readByte a = s.readByte a) ∧
    (t.i ≠ s.i → (∃ nnn, i = .setIndex nnn) ∨ (∃ x, i = .addToIndex x) ∨ ∃ x, i = .loadFontSprite x) ∧
    (t.pc ≠ s.pc → i = .ret ∨ (∃ nnn, i = .jump nnn) ∨ (∃ nnn, i = .call nnn) ∨ (∃ x nn, i = .skipEqImm x nn) ∨
      (∃ x nn, i = .skipNeqImm x nn) ∨ (∃ x y, i = .skipEqReg x y) ∨ (∃ x, i = .skipIfKey x) ∨ ∃ x, i = .skipIfNotKey x) ∧
    (t.stack ≠ s.stack → ∃ nnn, i = .call nnn) ∧ (t.sp ≠ s.sp → i = .ret ∨ ∃ nnn, i = .call nnn) ∧
    (t.dtValue ≠ s.dtValue ∨ t.dtStamp ≠ s.dtStamp → ∃ x, i = .setDelayTimer x) ∧
    (t.fb ≠ s.fb → i = .clear ∨ ∃ x y n, i = .draw x y n) ∧
    (t.status ≠ s.status → i = .ret ∨ ∃ nnn, i = .call nnn) ∧
    t.keys = s.keys ∧ t.now = s.now ∧ t.rnd = s.rnd ∧ t.draws = s.draws ∧ t.word = s.word

/-- The flag register: ADD_REG, SUB_REG, SHR, SHL and DRAW always leave 0 or 1 in VF, and no other instruction changes VF unless it
names V[15] as its destination. D13, D14. -/
def Obligations.OnlyFiveInstructionsSetTheFlag : Prop :=
  ∀ (i : Instr) (s t : State), exec i s = .next t →
    (((∃ x y, i = .addReg x y) ∨ (∃ x y, i = .subReg x y) ∨ (∃ x y, i = .shr x y) ∨ (∃ x y, i = .shl x y) ∨
      ∃ x y n, i = .draw x y n) → t.reg 15 = 0 ∨ t.reg 15 = 1) ∧
    (t.reg 15 ≠ s.reg 15 →
      (∃ x y, i = .addReg x y) ∨ (∃ x y, i = .subReg x y) ∨ (∃ x y, i = .shr x y) ∨ (∃ x y, i = .shl x y) ∨
      (∃ x y n, i = .draw x y n) ∨
      (∃ nn, i = .setImm 15 nn) ∨ (∃ nn, i = .addImm 15 nn) ∨ (∃ y, i = .orReg 15 y) ∨ (∃ y, i = .andReg 15 y) ∨
      (∃ y, i = .xorReg 15 y) ∨ (∃ nn, i = .random 15 nn) ∨ i = .getDelayTimer 15 ∨ i = .loadRegisters 15)
end

