-- ==== Sys2Proof/Laws/Decode.lean ====
section
/-! SUPPORT. The fields of the encoder's words, one law for each form and field, and the operands' ranges. -/

namespace Sys2Proof

/-- Every instruction is well-formed: the operand types hold exactly the field values (R51, R53). -/
theorem Instr.wellFormed_all (i : Instr) : i.wellFormed = true := by
  cases i <;> simp [Instr.wellFormed, Instr.operands, operandsFit, nibbleOperand, byteOperand, addrOperand] <;> omega

section Bits

variable (a b c d : BitVec 4) (x : Reg) (nn : Byte) (nnn : Addr)

theorem getLsbD_formNNN (k : Nat) :
    (formNNN a nnn).getLsbD k = if k < 12 then nnn.getLsbD k else a.getLsbD (k - 12) := by
  have h : (a ++ nnn).getLsbD k = _ := BitVec.getLsbD_append
  exact h.trans (by by_cases hk : k < 12 <;> simp [hk])

theorem getLsbD_formXNN (k : Nat) :
    (formXNN a x nn).getLsbD k =
      if k < 8 then nn.getLsbD k else if k < 12 then (nibble x).getLsbD (k - 8) else a.getLsbD (k - 12) := by
  have h : (a ++ nibble x ++ nn).getLsbD k = _ := BitVec.getLsbD_append
  refine h.trans ?_
  by_cases h8 : k < 8
  · simp [h8]
  · have h' : (a ++ nibble x).getLsbD (k - 8) = _ := BitVec.getLsbD_append
    by_cases h12 : k < 12
    · have : k - 8 < 4 := by omega
      simp [h8, h12, h', this]
    · have : ¬ k - 8 < 4 := by omega
      simp [h8, h12, h', this, Nat.sub_sub]

theorem getLsbD_nibbles (k : Nat) :
    (nibbles a b c d).getLsbD k =
      if k < 4 then d.getLsbD k else if k < 8 then c.getLsbD (k - 4)
      else if k < 12 then b.getLsbD (k - 8) else a.getLsbD (k - 12) := by
  have h : (a ++ b ++ c ++ d).getLsbD k = _ := BitVec.getLsbD_append
  have h' : (a ++ b ++ c).getLsbD (k - 4) = _ := BitVec.getLsbD_append
  have h'' : (a ++ b).getLsbD (k - 4 - 4) = _ := BitVec.getLsbD_append
  refine h.trans ?_
  by_cases h4 : k < 4
  · rw [if_pos h4, if_pos h4]
  rw [if_neg h4, if_neg h4, h']
  by_cases h8 : k < 8
  · rw [if_pos h8, if_pos (by omega)]
  rw [if_neg h8, if_neg (by omega), h'']
  by_cases h12 : k < 12
  · rw [if_pos h12, if_pos (by omega), Nat.sub_sub]
  · rw [if_neg h12, if_neg (by omega), Nat.sub_sub, Nat.sub_sub]

/-- A field of a word is `f` when its bits are. -/
theorem extractLsb'_eq {w : Word} {start len : Nat} {f : BitVec len}
    (h : ∀ k < len, w.getLsbD (start + k) = f.getLsbD k) : w.extractLsb' start len = f := by
  apply BitVec.eq_of_getLsbD_eq
  intro k hk
  simp [hk, h k hk]

end Bits

section Fields

variable (a b c d : BitVec 4) (x : Reg) (nn : Byte) (nnn : Addr)

@[simp] theorem opField_nibbles : opField (nibbles a b c d) = a :=
  extractLsb'_eq fun k hk => by
    rw [getLsbD_nibbles, if_neg (by omega), if_neg (by omega), if_neg (by omega), Nat.add_sub_cancel_left]

@[simp] theorem xField_nibbles : xField (nibbles a (nibble x) c d) = x :=
  congrArg BitVec.toFin (extractLsb'_eq (f := nibble x) fun k hk => by
    rw [getLsbD_nibbles, if_neg (by omega), if_neg (by omega), if_pos (by omega), Nat.add_sub_cancel_left])

@[simp] theorem yField_nibbles : yField (nibbles a b (nibble x) d) = x :=
  congrArg BitVec.toFin (extractLsb'_eq (f := nibble x) fun k hk => by
    rw [getLsbD_nibbles, if_neg (by omega), if_pos (by omega), Nat.add_sub_cancel_left])

@[simp] theorem nField_nibbles : nField (nibbles a b c d) = d :=
  extractLsb'_eq fun k hk => by rw [getLsbD_nibbles, if_pos (by omega), Nat.zero_add]

@[simp] theorem opField_formXNN : opField (formXNN a x nn) = a :=
  extractLsb'_eq fun k hk => by
    rw [getLsbD_formXNN, if_neg (by omega), if_neg (by omega), Nat.add_sub_cancel_left]

@[simp] theorem xField_formXNN : xField (formXNN a x nn) = x :=
  congrArg BitVec.toFin (extractLsb'_eq (f := nibble x) fun k hk => by
    rw [getLsbD_formXNN, if_neg (by omega), if_pos (by omega), Nat.add_sub_cancel_left])

@[simp] theorem nnField_formXNN : nnField (formXNN a x nn) = nn :=
  extractLsb'_eq fun k hk => by rw [getLsbD_formXNN, if_pos (by omega), Nat.zero_add]

@[simp] theorem opField_formNNN : opField (formNNN a nnn) = a :=
  extractLsb'_eq fun k hk => by rw [getLsbD_formNNN, if_neg (by omega), Nat.add_sub_cancel_left]

@[simp] theorem nnnField_formNNN : nnnField (formNNN a nnn) = nnn :=
  extractLsb'_eq fun k hk => by rw [getLsbD_formNNN, if_pos (by omega), Nat.zero_add]

end Fields

/-! A word is the concatenation of its fields. -/

theorem word_eq_formNNN (w : Word) : formNNN (opField w) (nnnField w) = w := by
  apply BitVec.eq_of_getLsbD_eq
  intro k hk
  rw [getLsbD_formNNN]
  split
  · simp [nnnField, *]
  · simp [opField, show k - 12 < 4 by omega, show 12 + (k - 12) = k by omega]

theorem nibble_xField (w : Word) : nibble (xField w) = w.extractLsb' 8 4 := rfl

theorem nibble_yField (w : Word) : nibble (yField w) = w.extractLsb' 4 4 := rfl

theorem word_eq_formXNN (w : Word) : formXNN (opField w) (xField w) (nnField w) = w := by
  apply BitVec.eq_of_getLsbD_eq
  intro k hk
  rw [getLsbD_formXNN, nibble_xField]
  split
  · simp [nnField, *]
  · split
    · simp [show k - 8 < 4 by omega, show 8 + (k - 8) = k by omega]
    · simp [opField, show k - 12 < 4 by omega, show 12 + (k - 12) = k by omega]

theorem word_eq_nibbles (w : Word) : nibbles (opField w) (nibble (xField w)) (nibble (yField w)) (nField w) = w := by
  apply BitVec.eq_of_getLsbD_eq
  intro k hk
  rw [getLsbD_nibbles, nibble_xField, nibble_yField]
  split
  · simp [nField, *]
  · split
    · simp [show k - 4 < 4 by omega, show 4 + (k - 4) = k by omega]
    · split
      · simp [show k - 8 < 4 by omega, show 8 + (k - 8) = k by omega]
      · simp [opField, show k - 12 < 4 by omega, show 12 + (k - 12) = k by omega]

end Sys2Proof
end

