-- ==== Sys2Proof/Laws/State.lean ====
section
/-! SUPPORT. What each state update leaves in each field, so that no later proof unfolds a record update. -/

namespace Sys2Proof.Machine

variable (s : State)

/-! ### setReg -/

@[simp] theorem State.setReg_v (r : Reg) (b : Byte) : (s.setReg r b).v = s.v.set r b := rfl
@[simp] theorem State.setReg_i (r : Reg) (b : Byte) : (s.setReg r b).i = s.i := rfl
@[simp] theorem State.setReg_pc (r : Reg) (b : Byte) : (s.setReg r b).pc = s.pc := rfl
@[simp] theorem State.setReg_stack (r : Reg) (b : Byte) : (s.setReg r b).stack = s.stack := rfl
@[simp] theorem State.setReg_sp (r : Reg) (b : Byte) : (s.setReg r b).sp = s.sp := rfl
@[simp] theorem State.setReg_dtValue (r : Reg) (b : Byte) : (s.setReg r b).dtValue = s.dtValue := rfl
@[simp] theorem State.setReg_dtStamp (r : Reg) (b : Byte) : (s.setReg r b).dtStamp = s.dtStamp := rfl
@[simp] theorem State.setReg_fb (r : Reg) (b : Byte) : (s.setReg r b).fb = s.fb := rfl
@[simp] theorem State.setReg_keys (r : Reg) (b : Byte) : (s.setReg r b).keys = s.keys := rfl
@[simp] theorem State.setReg_mem (r : Reg) (b : Byte) : (s.setReg r b).mem = s.mem := rfl
@[simp] theorem State.setReg_now (r : Reg) (b : Byte) : (s.setReg r b).now = s.now := rfl
@[simp] theorem State.setReg_rnd (r : Reg) (b : Byte) : (s.setReg r b).rnd = s.rnd := rfl
@[simp] theorem State.setReg_draws (r : Reg) (b : Byte) : (s.setReg r b).draws = s.draws := rfl
@[simp] theorem State.setReg_status (r : Reg) (b : Byte) : (s.setReg r b).status = s.status := rfl
@[simp] theorem State.setReg_word (r : Reg) (b : Byte) : (s.setReg r b).word = s.word := rfl

/-! ### setIndex -/

@[simp] theorem State.setIndex_v (a : Word) : (s.setIndex a).v = s.v := rfl
@[simp] theorem State.setIndex_i (a : Word) : (s.setIndex a).i = a := rfl
@[simp] theorem State.setIndex_pc (a : Word) : (s.setIndex a).pc = s.pc := rfl
@[simp] theorem State.setIndex_stack (a : Word) : (s.setIndex a).stack = s.stack := rfl
@[simp] theorem State.setIndex_sp (a : Word) : (s.setIndex a).sp = s.sp := rfl
@[simp] theorem State.setIndex_dtValue (a : Word) : (s.setIndex a).dtValue = s.dtValue := rfl
@[simp] theorem State.setIndex_dtStamp (a : Word) : (s.setIndex a).dtStamp = s.dtStamp := rfl
@[simp] theorem State.setIndex_fb (a : Word) : (s.setIndex a).fb = s.fb := rfl
@[simp] theorem State.setIndex_keys (a : Word) : (s.setIndex a).keys = s.keys := rfl
@[simp] theorem State.setIndex_mem (a : Word) : (s.setIndex a).mem = s.mem := rfl
@[simp] theorem State.setIndex_now (a : Word) : (s.setIndex a).now = s.now := rfl
@[simp] theorem State.setIndex_rnd (a : Word) : (s.setIndex a).rnd = s.rnd := rfl
@[simp] theorem State.setIndex_draws (a : Word) : (s.setIndex a).draws = s.draws := rfl
@[simp] theorem State.setIndex_status (a : Word) : (s.setIndex a).status = s.status := rfl
@[simp] theorem State.setIndex_word (a : Word) : (s.setIndex a).word = s.word := rfl

/-! ### setPc -/

@[simp] theorem State.setPc_v (a : Addr) : (s.setPc a).v = s.v := rfl
@[simp] theorem State.setPc_i (a : Addr) : (s.setPc a).i = s.i := rfl
@[simp] theorem State.setPc_pc (a : Addr) : (s.setPc a).pc = a := rfl
@[simp] theorem State.setPc_stack (a : Addr) : (s.setPc a).stack = s.stack := rfl
@[simp] theorem State.setPc_sp (a : Addr) : (s.setPc a).sp = s.sp := rfl
@[simp] theorem State.setPc_dtValue (a : Addr) : (s.setPc a).dtValue = s.dtValue := rfl
@[simp] theorem State.setPc_dtStamp (a : Addr) : (s.setPc a).dtStamp = s.dtStamp := rfl
@[simp] theorem State.setPc_fb (a : Addr) : (s.setPc a).fb = s.fb := rfl
@[simp] theorem State.setPc_keys (a : Addr) : (s.setPc a).keys = s.keys := rfl
@[simp] theorem State.setPc_mem (a : Addr) : (s.setPc a).mem = s.mem := rfl
@[simp] theorem State.setPc_now (a : Addr) : (s.setPc a).now = s.now := rfl
@[simp] theorem State.setPc_rnd (a : Addr) : (s.setPc a).rnd = s.rnd := rfl
@[simp] theorem State.setPc_draws (a : Addr) : (s.setPc a).draws = s.draws := rfl
@[simp] theorem State.setPc_status (a : Addr) : (s.setPc a).status = s.status := rfl
@[simp] theorem State.setPc_word (a : Addr) : (s.setPc a).word = s.word := rfl

/-! ### advancePc -/

@[simp] theorem State.advancePc_v : (s.advancePc).v = s.v := rfl
@[simp] theorem State.advancePc_i : (s.advancePc).i = s.i := rfl
@[simp] theorem State.advancePc_pc : (s.advancePc).pc = s.pc + 2 := rfl
@[simp] theorem State.advancePc_stack : (s.advancePc).stack = s.stack := rfl
@[simp] theorem State.advancePc_sp : (s.advancePc).sp = s.sp := rfl
@[simp] theorem State.advancePc_dtValue : (s.advancePc).dtValue = s.dtValue := rfl
@[simp] theorem State.advancePc_dtStamp : (s.advancePc).dtStamp = s.dtStamp := rfl
@[simp] theorem State.advancePc_fb : (s.advancePc).fb = s.fb := rfl
@[simp] theorem State.advancePc_keys : (s.advancePc).keys = s.keys := rfl
@[simp] theorem State.advancePc_mem : (s.advancePc).mem = s.mem := rfl
@[simp] theorem State.advancePc_now : (s.advancePc).now = s.now := rfl
@[simp] theorem State.advancePc_rnd : (s.advancePc).rnd = s.rnd := rfl
@[simp] theorem State.advancePc_draws : (s.advancePc).draws = s.draws := rfl
@[simp] theorem State.advancePc_status : (s.advancePc).status = s.status := rfl
@[simp] theorem State.advancePc_word : (s.advancePc).word = s.word := rfl

/-! ### writeByte -/

@[simp] theorem State.writeByte_v (a : Nat) (b : Byte) : (s.writeByte a b).v = s.v := rfl
@[simp] theorem State.writeByte_i (a : Nat) (b : Byte) : (s.writeByte a b).i = s.i := rfl
@[simp] theorem State.writeByte_pc (a : Nat) (b : Byte) : (s.writeByte a b).pc = s.pc := rfl
@[simp] theorem State.writeByte_stack (a : Nat) (b : Byte) : (s.writeByte a b).stack = s.stack := rfl
@[simp] theorem State.writeByte_sp (a : Nat) (b : Byte) : (s.writeByte a b).sp = s.sp := rfl
@[simp] theorem State.writeByte_dtValue (a : Nat) (b : Byte) : (s.writeByte a b).dtValue = s.dtValue := rfl
@[simp] theorem State.writeByte_dtStamp (a : Nat) (b : Byte) : (s.writeByte a b).dtStamp = s.dtStamp := rfl
@[simp] theorem State.writeByte_fb (a : Nat) (b : Byte) : (s.writeByte a b).fb = s.fb := rfl
@[simp] theorem State.writeByte_keys (a : Nat) (b : Byte) : (s.writeByte a b).keys = s.keys := rfl
@[simp] theorem State.writeByte_mem (a : Nat) (b : Byte) : (s.writeByte a b).mem = s.mem.write a b := rfl
@[simp] theorem State.writeByte_now (a : Nat) (b : Byte) : (s.writeByte a b).now = s.now := rfl
@[simp] theorem State.writeByte_rnd (a : Nat) (b : Byte) : (s.writeByte a b).rnd = s.rnd := rfl
@[simp] theorem State.writeByte_draws (a : Nat) (b : Byte) : (s.writeByte a b).draws = s.draws := rfl
@[simp] theorem State.writeByte_status (a : Nat) (b : Byte) : (s.writeByte a b).status = s.status := rfl
@[simp] theorem State.writeByte_word (a : Nat) (b : Byte) : (s.writeByte a b).word = s.word := rfl

/-! ### setRegThenFlag -/

@[simp] theorem State.setRegThenFlag_v (x : Reg) (r f : Byte) : (s.setRegThenFlag x r f).v = (s.v.set x r).set flagReg f := rfl
@[simp] theorem State.setRegThenFlag_i (x : Reg) (r f : Byte) : (s.setRegThenFlag x r f).i = s.i := rfl
@[simp] theorem State.setRegThenFlag_pc (x : Reg) (r f : Byte) : (s.setRegThenFlag x r f).pc = s.pc := rfl
@[simp] theorem State.setRegThenFlag_stack (x : Reg) (r f : Byte) : (s.setRegThenFlag x r f).stack = s.stack := rfl
@[simp] theorem State.setRegThenFlag_sp (x : Reg) (r f : Byte) : (s.setRegThenFlag x r f).sp = s.sp := rfl
@[simp] theorem State.setRegThenFlag_dtValue (x : Reg) (r f : Byte) : (s.setRegThenFlag x r f).dtValue = s.dtValue := rfl
@[simp] theorem State.setRegThenFlag_dtStamp (x : Reg) (r f : Byte) : (s.setRegThenFlag x r f).dtStamp = s.dtStamp := rfl
@[simp] theorem State.setRegThenFlag_fb (x : Reg) (r f : Byte) : (s.setRegThenFlag x r f).fb = s.fb := rfl
@[simp] theorem State.setRegThenFlag_keys (x : Reg) (r f : Byte) : (s.setRegThenFlag x r f).keys = s.keys := rfl
@[simp] theorem State.setRegThenFlag_mem (x : Reg) (r f : Byte) : (s.setRegThenFlag x r f).mem = s.mem := rfl
@[simp] theorem State.setRegThenFlag_now (x : Reg) (r f : Byte) : (s.setRegThenFlag x r f).now = s.now := rfl
@[simp] theorem State.setRegThenFlag_rnd (x : Reg) (r f : Byte) : (s.setRegThenFlag x r f).rnd = s.rnd := rfl
@[simp] theorem State.setRegThenFlag_draws (x : Reg) (r f : Byte) : (s.setRegThenFlag x r f).draws = s.draws := rfl
@[simp] theorem State.setRegThenFlag_status (x : Reg) (r f : Byte) : (s.setRegThenFlag x r f).status = s.status := rfl
@[simp] theorem State.setRegThenFlag_word (x : Reg) (r f : Byte) : (s.setRegThenFlag x r f).word = s.word := rfl

/-! ### setTimer -/

@[simp] theorem State.setTimer_v (b : Byte) : (s.setTimer b).v = s.v := rfl
@[simp] theorem State.setTimer_i (b : Byte) : (s.setTimer b).i = s.i := rfl
@[simp] theorem State.setTimer_pc (b : Byte) : (s.setTimer b).pc = s.pc := rfl
@[simp] theorem State.setTimer_stack (b : Byte) : (s.setTimer b).stack = s.stack := rfl
@[simp] theorem State.setTimer_sp (b : Byte) : (s.setTimer b).sp = s.sp := rfl
@[simp] theorem State.setTimer_dtValue (b : Byte) : (s.setTimer b).dtValue = b := rfl
@[simp] theorem State.setTimer_dtStamp (b : Byte) : (s.setTimer b).dtStamp = s.now := rfl
@[simp] theorem State.setTimer_fb (b : Byte) : (s.setTimer b).fb = s.fb := rfl
@[simp] theorem State.setTimer_keys (b : Byte) : (s.setTimer b).keys = s.keys := rfl
@[simp] theorem State.setTimer_mem (b : Byte) : (s.setTimer b).mem = s.mem := rfl
@[simp] theorem State.setTimer_now (b : Byte) : (s.setTimer b).now = s.now := rfl
@[simp] theorem State.setTimer_rnd (b : Byte) : (s.setTimer b).rnd = s.rnd := rfl
@[simp] theorem State.setTimer_draws (b : Byte) : (s.setTimer b).draws = s.draws := rfl
@[simp] theorem State.setTimer_status (b : Byte) : (s.setTimer b).status = s.status := rfl
@[simp] theorem State.setTimer_word (b : Byte) : (s.setTimer b).word = s.word := rfl

/-! ### raise -/

@[simp] theorem State.raise_v (f : Status) : (s.raise f).v = s.v := rfl
@[simp] theorem State.raise_i (f : Status) : (s.raise f).i = s.i := rfl
@[simp] theorem State.raise_pc (f : Status) : (s.raise f).pc = s.pc := rfl
@[simp] theorem State.raise_stack (f : Status) : (s.raise f).stack = s.stack := rfl
@[simp] theorem State.raise_sp (f : Status) : (s.raise f).sp = s.sp := rfl
@[simp] theorem State.raise_dtValue (f : Status) : (s.raise f).dtValue = s.dtValue := rfl
@[simp] theorem State.raise_dtStamp (f : Status) : (s.raise f).dtStamp = s.dtStamp := rfl
@[simp] theorem State.raise_fb (f : Status) : (s.raise f).fb = s.fb := rfl
@[simp] theorem State.raise_keys (f : Status) : (s.raise f).keys = s.keys := rfl
@[simp] theorem State.raise_mem (f : Status) : (s.raise f).mem = s.mem := rfl
@[simp] theorem State.raise_now (f : Status) : (s.raise f).now = s.now := rfl
@[simp] theorem State.raise_rnd (f : Status) : (s.raise f).rnd = s.rnd := rfl
@[simp] theorem State.raise_draws (f : Status) : (s.raise f).draws = s.draws := rfl
@[simp] theorem State.raise_status (f : Status) : (s.raise f).status = f := rfl
@[simp] theorem State.raise_word (f : Status) : (s.raise f).word = s.word := rfl

/-! ### fetch -/

@[simp] theorem State.fetch_v : (s.fetch).v = s.v := rfl
@[simp] theorem State.fetch_i : (s.fetch).i = s.i := rfl
@[simp] theorem State.fetch_pc : (s.fetch).pc = s.pc + 2 := rfl
@[simp] theorem State.fetch_stack : (s.fetch).stack = s.stack := rfl
@[simp] theorem State.fetch_sp : (s.fetch).sp = s.sp := rfl
@[simp] theorem State.fetch_dtValue : (s.fetch).dtValue = s.dtValue := rfl
@[simp] theorem State.fetch_dtStamp : (s.fetch).dtStamp = s.dtStamp := rfl
@[simp] theorem State.fetch_fb : (s.fetch).fb = s.fb := rfl
@[simp] theorem State.fetch_keys : (s.fetch).keys = s.keys := rfl
@[simp] theorem State.fetch_mem : (s.fetch).mem = s.mem := rfl
@[simp] theorem State.fetch_now : (s.fetch).now = s.now := rfl
@[simp] theorem State.fetch_rnd : (s.fetch).rnd = s.rnd := rfl
@[simp] theorem State.fetch_draws : (s.fetch).draws = s.draws := rfl
@[simp] theorem State.fetch_status : (s.fetch).status = .ok := rfl
@[simp] theorem State.fetch_word : (s.fetch).word = s.fetchWord := rfl

/-! ### drawInputs -/

@[simp] theorem State.drawInputs_v : (s.drawInputs).v = s.v := rfl
@[simp] theorem State.drawInputs_i : (s.drawInputs).i = s.i := rfl
@[simp] theorem State.drawInputs_pc : (s.drawInputs).pc = s.pc := rfl
@[simp] theorem State.drawInputs_stack : (s.drawInputs).stack = s.stack := rfl
@[simp] theorem State.drawInputs_sp : (s.drawInputs).sp = s.sp := rfl
@[simp] theorem State.drawInputs_dtValue : (s.drawInputs).dtValue = s.dtValue := rfl
@[simp] theorem State.drawInputs_dtStamp : (s.drawInputs).dtStamp = s.dtStamp := rfl
@[simp] theorem State.drawInputs_fb : (s.drawInputs).fb = s.fb := rfl
@[simp] theorem State.drawInputs_keys : (s.drawInputs).keys = s.keys := rfl
@[simp] theorem State.drawInputs_mem : (s.drawInputs).mem = s.mem := rfl
@[simp] theorem State.drawInputs_now : (s.drawInputs).now = s.now + Config.elapsed s.draws := rfl
@[simp] theorem State.drawInputs_rnd : (s.drawInputs).rnd = Config.randomByte s.draws := rfl
@[simp] theorem State.drawInputs_draws : (s.drawInputs).draws = s.draws + 1 := rfl
@[simp] theorem State.drawInputs_status : (s.drawInputs).status = s.status := rfl
@[simp] theorem State.drawInputs_word : (s.drawInputs).word = s.word := rfl

/-! ### withInputs -/

@[simp] theorem State.withInputs_v (now : Nat) (rnd : Byte) : (s.withInputs now rnd).v = s.v := rfl
@[simp] theorem State.withInputs_i (now : Nat) (rnd : Byte) : (s.withInputs now rnd).i = s.i := rfl
@[simp] theorem State.withInputs_pc (now : Nat) (rnd : Byte) : (s.withInputs now rnd).pc = s.pc := rfl
@[simp] theorem State.withInputs_stack (now : Nat) (rnd : Byte) : (s.withInputs now rnd).stack = s.stack := rfl
@[simp] theorem State.withInputs_sp (now : Nat) (rnd : Byte) : (s.withInputs now rnd).sp = s.sp := rfl
@[simp] theorem State.withInputs_dtValue (now : Nat) (rnd : Byte) : (s.withInputs now rnd).dtValue = s.dtValue := rfl
@[simp] theorem State.withInputs_dtStamp (now : Nat) (rnd : Byte) : (s.withInputs now rnd).dtStamp = s.dtStamp := rfl
@[simp] theorem State.withInputs_fb (now : Nat) (rnd : Byte) : (s.withInputs now rnd).fb = s.fb := rfl
@[simp] theorem State.withInputs_keys (now : Nat) (rnd : Byte) : (s.withInputs now rnd).keys = s.keys := rfl
@[simp] theorem State.withInputs_mem (now : Nat) (rnd : Byte) : (s.withInputs now rnd).mem = s.mem := rfl
@[simp] theorem State.withInputs_now (now : Nat) (rnd : Byte) : (s.withInputs now rnd).now = now := rfl
@[simp] theorem State.withInputs_rnd (now : Nat) (rnd : Byte) : (s.withInputs now rnd).rnd = rnd := rfl
@[simp] theorem State.withInputs_draws (now : Nat) (rnd : Byte) : (s.withInputs now rnd).draws = s.draws := rfl
@[simp] theorem State.withInputs_status (now : Nat) (rnd : Byte) : (s.withInputs now rnd).status = s.status := rfl
@[simp] theorem State.withInputs_word (now : Nat) (rnd : Byte) : (s.withInputs now rnd).word = s.word := rfl

/-! ### setKey -/

@[simp] theorem State.setKey_v (k : Fin 16) (p : Bool) : (s.setKey k p).v = s.v := rfl
@[simp] theorem State.setKey_i (k : Fin 16) (p : Bool) : (s.setKey k p).i = s.i := rfl
@[simp] theorem State.setKey_pc (k : Fin 16) (p : Bool) : (s.setKey k p).pc = s.pc := rfl
@[simp] theorem State.setKey_stack (k : Fin 16) (p : Bool) : (s.setKey k p).stack = s.stack := rfl
@[simp] theorem State.setKey_sp (k : Fin 16) (p : Bool) : (s.setKey k p).sp = s.sp := rfl
@[simp] theorem State.setKey_dtValue (k : Fin 16) (p : Bool) : (s.setKey k p).dtValue = s.dtValue := rfl
@[simp] theorem State.setKey_dtStamp (k : Fin 16) (p : Bool) : (s.setKey k p).dtStamp = s.dtStamp := rfl
@[simp] theorem State.setKey_fb (k : Fin 16) (p : Bool) : (s.setKey k p).fb = s.fb := rfl
@[simp] theorem State.setKey_keys (k : Fin 16) (p : Bool) : (s.setKey k p).keys = s.keys.set k p := rfl
@[simp] theorem State.setKey_mem (k : Fin 16) (p : Bool) : (s.setKey k p).mem = s.mem := rfl
@[simp] theorem State.setKey_now (k : Fin 16) (p : Bool) : (s.setKey k p).now = s.now := rfl
@[simp] theorem State.setKey_rnd (k : Fin 16) (p : Bool) : (s.setKey k p).rnd = s.rnd := rfl
@[simp] theorem State.setKey_draws (k : Fin 16) (p : Bool) : (s.setKey k p).draws = s.draws := rfl
@[simp] theorem State.setKey_status (k : Fin 16) (p : Bool) : (s.setKey k p).status = s.status := rfl
@[simp] theorem State.setKey_word (k : Fin 16) (p : Bool) : (s.setKey k p).word = s.word := rfl

/-! ### skipIf: only pc can change -/

@[simp] theorem State.skipIf_true : s.skipIf true = s.advancePc := rfl

@[simp] theorem State.skipIf_false : s.skipIf false = s := rfl

@[simp] theorem State.skipIf_v (c : Bool) : (s.skipIf c).v = s.v := by cases c <;> rfl
@[simp] theorem State.skipIf_i (c : Bool) : (s.skipIf c).i = s.i := by cases c <;> rfl
theorem State.skipIf_pc (c : Bool) : (s.skipIf c).pc = if c then s.pc + 2 else s.pc := by cases c <;> rfl
@[simp] theorem State.skipIf_stack (c : Bool) : (s.skipIf c).stack = s.stack := by cases c <;> rfl
@[simp] theorem State.skipIf_sp (c : Bool) : (s.skipIf c).sp = s.sp := by cases c <;> rfl
@[simp] theorem State.skipIf_dtValue (c : Bool) : (s.skipIf c).dtValue = s.dtValue := by cases c <;> rfl
@[simp] theorem State.skipIf_dtStamp (c : Bool) : (s.skipIf c).dtStamp = s.dtStamp := by cases c <;> rfl
@[simp] theorem State.skipIf_fb (c : Bool) : (s.skipIf c).fb = s.fb := by cases c <;> rfl
@[simp] theorem State.skipIf_keys (c : Bool) : (s.skipIf c).keys = s.keys := by cases c <;> rfl
@[simp] theorem State.skipIf_mem (c : Bool) : (s.skipIf c).mem = s.mem := by cases c <;> rfl
@[simp] theorem State.skipIf_now (c : Bool) : (s.skipIf c).now = s.now := by cases c <;> rfl
@[simp] theorem State.skipIf_rnd (c : Bool) : (s.skipIf c).rnd = s.rnd := by cases c <;> rfl
@[simp] theorem State.skipIf_draws (c : Bool) : (s.skipIf c).draws = s.draws := by cases c <;> rfl
@[simp] theorem State.skipIf_status (c : Bool) : (s.skipIf c).status = s.status := by cases c <;> rfl
@[simp] theorem State.skipIf_word (c : Bool) : (s.skipIf c).word = s.word := by cases c <;> rfl

end Sys2Proof.Machine
end

