-- ==== Sys2Proof/Laws/Memory.lean ====
section
/-! SUPPORT. The laws of memory: a read after a write, and that every memory operation keeps the canonical form. -/

namespace Sys2Proof.Machine

/-! ### Read after write -/

theorem Memory.lookup_erase (m : Memory) (a b : Nat) :
    (m.erase a).lookup b = if a = b then resetByte b else m.lookup b := by
  induction m with
  | nil => simp [Memory.erase, Memory.lookup]
  | cons c rest ih =>
    obtain ⟨k, x⟩ := c
    by_cases hk : k = a
    · subst hk
      by_cases hb : k = b <;> simp_all [Memory.erase, Memory.lookup]
    · by_cases hb : k = b
      · subst hb
        simp [Memory.erase, Memory.lookup, hk, Ne.symm hk]
      · simp [Memory.erase, Memory.lookup, hk, hb, ih]

theorem Memory.lookup_insert_same (m : Memory) (a : Nat) (x : Byte) :
    ((m.erase a).insert a x).lookup a = x := by
  induction m with
  | nil => simp [Memory.erase, Memory.insert, Memory.lookup]
  | cons c rest ih =>
    obtain ⟨k, y⟩ := c
    by_cases hk : k = a
    · simpa [Memory.erase, hk] using ih
    · by_cases hlt : a < k <;> simp [Memory.erase, Memory.insert, Memory.lookup, hk, hlt, ih]

theorem Memory.lookup_insert_other (m : Memory) {a b : Nat} (x : Byte) (h : a ≠ b) :
    (m.insert a x).lookup b = m.lookup b := by
  induction m with
  | nil => simp [Memory.insert, Memory.lookup, h]
  | cons c rest ih =>
    obtain ⟨k, y⟩ := c
    by_cases hlt : a < k
    · simp [Memory.insert, Memory.lookup, hlt, h]
    · simp [Memory.insert, Memory.lookup, hlt, ih]

/-- A read after a write: the byte written at the same address modulo 4096, the byte from before anywhere else. -/
theorem Memory.read_write (m : Memory) (a b : Nat) (x : Byte) :
    (m.write a x).read b = if a % 4096 = b % 4096 then x else m.read b := by
  unfold Memory.write Memory.read
  by_cases hx : x = resetByte (a % Config.memSize)
  · simp only [hx, if_true, Memory.lookup_erase]
    split <;> simp_all
  · simp only [hx, if_false]
    by_cases hab : a % 4096 = b % 4096
    · simp [hab, Memory.lookup_insert_same]
    · have : a % Config.memSize ≠ b % Config.memSize := hab
      simp [hab, Memory.lookup_insert_other _ x this, Memory.lookup_erase]

theorem Memory.read_write_same (m : Memory) (a : Nat) (x : Byte) : (m.write a x).read a = x := by
  simp [Memory.read_write]

theorem Memory.read_mod (m : Memory) (a : Nat) : m.read (a % 4096) = m.read a := by
  simp [Memory.read]

/-- A block of bytes written from `addr` up, read back below the top of memory. -/
theorem Memory.read_writeBytes (bs : List Byte) (m : Memory) (addr b : Nat) (h : addr + bs.length ≤ 4096) (hb : b < 4096) :
    (m.writeBytes addr bs).read b = if addr ≤ b ∧ b < addr + bs.length then bs.getD (b - addr) 0 else m.read b := by
  induction bs generalizing m addr with
  | nil =>
    have : ¬ (addr ≤ b ∧ b < addr) := by omega
    simp [Memory.writeBytes, this]
  | cons x xs ih =>
    simp only [List.length_cons] at h ⊢
    rw [Memory.writeBytes, ih (m.write addr x) (addr + 1) (by omega), Memory.read_write]
    have ha : addr % 4096 = addr := Nat.mod_eq_of_lt (by omega)
    have hbm : b % 4096 = b := Nat.mod_eq_of_lt hb
    rw [ha, hbm]
    by_cases h1 : b = addr
    · subst h1
      simp
    · by_cases h2 : addr < b ∧ b < addr + 1 + xs.length
      · have : b - addr = (b - (addr + 1)) + 1 := by omega
        rw [if_pos (by omega), if_pos (by omega), this, List.getD_cons_succ]
      · rw [if_neg (by omega), if_neg (by omega), if_neg (by omega)]

/-! ### The canonical form -/

/-- The canonical form in the shape inductions use: in range, no default entry, below everything after it. -/
theorem Memory.wf_cons (c : Host.Cell) (rest : Memory) :
    Memory.wf (c :: rest) = true ↔
      (c.1 < 4096 ∧ c.2 ≠ resetByte c.1 ∧ (∀ d ∈ rest, c.1 < d.1) ∧ Memory.wf rest = true) := by
  induction rest generalizing c with
  | nil => simp [Memory.wf]
  | cons d rest ih =>
    have hd := ih d
    simp only [Memory.wf, Bool.and_eq_true, decide_eq_true_eq, bne_iff_ne, ne_eq, List.mem_cons, forall_eq_or_imp]
    constructor
    · rintro ⟨⟨hlt, hne⟩, hwf⟩
      obtain ⟨hd1, _, hall, _⟩ := hd.mp hwf
      exact ⟨by omega, hne, ⟨hlt, fun e he => lt_trans hlt (hall e he)⟩, hwf⟩
    · rintro ⟨_, hne, ⟨hlt, _⟩, hwf⟩
      exact ⟨⟨hlt, hne⟩, hwf⟩

theorem Memory.mem_erase {m : Memory} {a : Nat} {d : Host.Cell} (h : d ∈ m.erase a) : d ∈ m ∧ d.1 ≠ a := by
  induction m with
  | nil => simp [Memory.erase] at h
  | cons c rest ih =>
    obtain ⟨k, x⟩ := c
    by_cases hk : k = a
    · simp only [Memory.erase, hk, if_true] at h
      exact ⟨List.mem_cons_of_mem _ (ih h).1, (ih h).2⟩
    · simp only [Memory.erase, hk, if_false, List.mem_cons] at h
      rcases h with rfl | h
      · exact ⟨by simp, hk⟩
      · exact ⟨List.mem_cons_of_mem _ (ih h).1, (ih h).2⟩

theorem Memory.mem_insert {m : Memory} {a : Nat} {x : Byte} {d : Host.Cell} (h : d ∈ m.insert a x) :
    d = (a, x) ∨ d ∈ m := by
  induction m with
  | nil => simpa [Memory.insert] using h
  | cons c rest ih =>
    by_cases hlt : a < c.1
    · simpa [Memory.insert, hlt] using h
    · simp only [Memory.insert, hlt, if_false, List.mem_cons] at h ⊢
      rcases h with h | h
      · exact .inr (.inl h)
      · exact (ih h).imp_right .inr

theorem Memory.wf_erase {m : Memory} (a : Nat) (h : m.wf = true) : (m.erase a).wf = true := by
  induction m with
  | nil => rfl
  | cons c rest ih =>
    obtain ⟨h1, h2, h3, h4⟩ := (Memory.wf_cons c rest).mp h
    by_cases hk : c.1 = a
    · simpa [Memory.erase, hk] using ih h4
    · simp only [Memory.erase, hk, if_false]
      exact (Memory.wf_cons _ _).mpr ⟨h1, h2, fun d hd => h3 d (Memory.mem_erase hd).1, ih h4⟩

theorem Memory.wf_insert {m : Memory} {a : Nat} {x : Byte} (h : m.wf = true) (ha : a < 4096) (hx : x ≠ resetByte a)
    (hfree : ∀ d ∈ m, d.1 ≠ a) : (m.insert a x).wf = true := by
  induction m with
  | nil => exact (Memory.wf_cons _ _).mpr ⟨ha, hx, by simp, rfl⟩
  | cons c rest ih =>
    obtain ⟨h1, h2, h3, h4⟩ := (Memory.wf_cons c rest).mp h
    have hca : c.1 ≠ a := hfree c (by simp)
    by_cases hlt : a < c.1
    · simp only [Memory.insert, hlt, if_true]
      refine (Memory.wf_cons _ _).mpr ⟨ha, hx, ?_, h⟩
      intro d hd
      rcases List.mem_cons.mp hd with rfl | hd
      · exact hlt
      · exact lt_trans hlt (h3 d hd)
    · simp only [Memory.insert, hlt, if_false]
      refine (Memory.wf_cons _ _).mpr ⟨h1, h2, ?_, ih h4 fun d hd => hfree d (List.mem_cons_of_mem _ hd)⟩
      intro d hd
      rcases Memory.mem_insert hd with rfl | hd
      · show c.1 < a
        omega
      · exact h3 d hd

/-- Every write keeps the canonical form. -/
theorem Memory.wf_write {m : Memory} (addr : Nat) (x : Byte) (h : m.wf = true) : (m.write addr x).wf = true := by
  unfold Memory.write
  by_cases hx : x = resetByte (addr % Config.memSize)
  · simpa [hx] using Memory.wf_erase _ h
  · simp only [hx, if_false]
    exact Memory.wf_insert (Memory.wf_erase _ h) (Nat.mod_lt _ (by decide)) hx fun d hd => (Memory.mem_erase hd).2

/-- Every block write keeps the canonical form. -/
theorem Memory.wf_writeBytes (bs : List Byte) {m : Memory} (addr : Nat) (h : m.wf = true) :
    (m.writeBytes addr bs).wf = true := by
  induction bs generalizing m addr with
  | nil => exact h
  | cons x xs ih => exact ih (addr + 1) (Memory.wf_write addr x h)

theorem State.reset_mem_wf : State.reset.mem.wf = true := rfl

/-! ### The machine's memory -/

theorem State.readByte_writeByte (s : State) (a b : Nat) (x : Byte) :
    (s.writeByte a x).readByte b = if a % 4096 = b % 4096 then x else s.readByte b := Memory.read_write s.mem a b x

theorem State.readByte_mod (s : State) (a : Nat) : s.readByte (a % 4096) = s.readByte a := Memory.read_mod s.mem a

@[simp] theorem State.readByte_setReg (s : State) (r : Reg) (x : Byte) (a : Nat) :
    (s.setReg r x).readByte a = s.readByte a := rfl

end Sys2Proof.Machine
end

