-- ==== Sys2Proof/Laws/Ops.lean ====
section
/-! SUPPORT. One law for each shared operation over registers, the call stack, the timer and the step: everything the
operation can do, to be cited instead of unfolding it. -/

namespace Sys2Proof.Machine

variable (s : State)

/-! ### Parameters as numbers, for omega and simp -/

@[simp] theorem memSize_eq : Config.memSize = 4096 := rfl

@[simp] theorem programBase_eq : Config.programBase = 512 := rfl

@[simp] theorem programMaxLen_eq : Config.programMaxLen = 3584 := rfl

/-! ### Registers -/

theorem State.reg_setReg (r q : Reg) (b : Byte) : (s.setReg r b).reg q = if q = r then b else s.reg q := by
  by_cases h : q = r
  · subst h
    simp [State.reg, State.setReg]
  · have hv : r.val ≠ q.val := fun e => h (Fin.ext e.symm)
    simp [State.reg, State.setReg, h, hv]

/-- Result first, flag last: the flag wins in V[15] (R77, R111). -/
theorem State.reg_setRegThenFlag (x q : Reg) (r f : Byte) :
    (s.setRegThenFlag x r f).reg q = if q = 15 then f else if q = x then r else s.reg q := by
  simp [State.setRegThenFlag, State.reg_setReg, flagReg]

/-- A register write is invisible everywhere but in the registers. -/
theorem State.setReg_eq (r : Reg) (b : Byte) : s.setReg r b = { s with v := (s.setReg r b).v } := rfl

theorem State.setRegThenFlag_eq (x : Reg) (r f : Byte) :
    s.setRegThenFlag x r f = { s with v := (s.setRegThenFlag x r f).v } := rfl

/-- Two register files that read the same are the same. -/
theorem State.v_ext {s t : State} (h : ∀ q, t.reg q = s.reg q) : t.v = s.v := by
  apply Vector.ext
  intro k hk
  exact h ⟨k, hk⟩

/-- LOAD_REGISTERS' loop: registers below `n` come from memory as it was, the others stay, and nothing else changes. -/
theorem State.loadRegs_eq (addr : Nat → Nat) (n : Nat) :
    s.loadRegs addr n = { s with v := (s.loadRegs addr n).v } := by
  induction n with
  | zero => rfl
  | succ k ih =>
    rw [State.loadRegs, ih]
    rfl

@[simp] theorem State.loadRegs_i (addr : Nat → Nat) (n : Nat) : (s.loadRegs addr n).i = s.i := by
  rw [State.loadRegs_eq]

@[simp] theorem State.loadRegs_pc (addr : Nat → Nat) (n : Nat) : (s.loadRegs addr n).pc = s.pc := by
  rw [State.loadRegs_eq]

@[simp] theorem State.loadRegs_stack (addr : Nat → Nat) (n : Nat) : (s.loadRegs addr n).stack = s.stack := by
  rw [State.loadRegs_eq]

@[simp] theorem State.loadRegs_sp (addr : Nat → Nat) (n : Nat) : (s.loadRegs addr n).sp = s.sp := by
  rw [State.loadRegs_eq]

@[simp] theorem State.loadRegs_dtValue (addr : Nat → Nat) (n : Nat) : (s.loadRegs addr n).dtValue = s.dtValue := by
  rw [State.loadRegs_eq]

@[simp] theorem State.loadRegs_dtStamp (addr : Nat → Nat) (n : Nat) : (s.loadRegs addr n).dtStamp = s.dtStamp := by
  rw [State.loadRegs_eq]

@[simp] theorem State.loadRegs_fb (addr : Nat → Nat) (n : Nat) : (s.loadRegs addr n).fb = s.fb := by
  rw [State.loadRegs_eq]

@[simp] theorem State.loadRegs_keys (addr : Nat → Nat) (n : Nat) : (s.loadRegs addr n).keys = s.keys := by
  rw [State.loadRegs_eq]

@[simp] theorem State.loadRegs_mem (addr : Nat → Nat) (n : Nat) : (s.loadRegs addr n).mem = s.mem := by
  rw [State.loadRegs_eq]

@[simp] theorem State.loadRegs_now (addr : Nat → Nat) (n : Nat) : (s.loadRegs addr n).now = s.now := by
  rw [State.loadRegs_eq]

@[simp] theorem State.loadRegs_rnd (addr : Nat → Nat) (n : Nat) : (s.loadRegs addr n).rnd = s.rnd := by
  rw [State.loadRegs_eq]

@[simp] theorem State.loadRegs_draws (addr : Nat → Nat) (n : Nat) : (s.loadRegs addr n).draws = s.draws := by
  rw [State.loadRegs_eq]

@[simp] theorem State.loadRegs_status (addr : Nat → Nat) (n : Nat) : (s.loadRegs addr n).status = s.status := by
  rw [State.loadRegs_eq]

@[simp] theorem State.loadRegs_word (addr : Nat → Nat) (n : Nat) : (s.loadRegs addr n).word = s.word := by
  rw [State.loadRegs_eq]

theorem State.reg_loadRegs (addr : Nat → Nat) {n : Nat} (hn : n ≤ 16) (q : Reg) :
    (s.loadRegs addr n).reg q = if q.val < n then s.readByte (addr q.val) else s.reg q := by
  induction n with
  | zero => simp [State.loadRegs]
  | succ k ih =>
    rw [State.loadRegs, State.reg_setReg, ih (by omega)]
    have hk : (Fin.ofNat 16 k).val = k := Nat.mod_eq_of_lt (by omega)
    by_cases h : q = Fin.ofNat 16 k
    · have hv : q.val = k := by rw [h, hk]
      rw [if_pos h, if_pos (by omega), hv]
    · have hv : q.val ≠ k := fun e => h (Fin.ext (by rw [hk, e]))
      rw [if_neg h]
      by_cases hq : q.val < k
      · rw [if_pos hq, if_pos (by omega)]
      · rw [if_neg hq, if_neg (by omega)]

/-! ### Call stack -/

/-- All that Push can do (R14). -/
theorem State.push_cases (a : Addr) :
    (s.sp.val = 16 ∧ s.push a = none) ∨
      ∃ (h : s.sp.val < 16) (t : State), s.push a = some t ∧
        t = { s with stack := s.stack.set s.sp.val a, sp := ⟨s.sp.val + 1, by omega⟩ } := by
  by_cases h : s.sp.val < 16
  · exact .inr ⟨h, _, by simp [State.push, h], rfl⟩
  · have := s.sp.isLt
    exact .inl ⟨by omega, by simp [State.push, h]⟩

/-- All that Pop can do (R14). -/
theorem State.pop_cases :
    (s.sp.val = 0 ∧ s.pop = none) ∨
      ∃ h : 0 < s.sp.val, s.pop =
        some (s.stack[s.sp.val - 1]'(by omega), { s with sp := ⟨s.sp.val - 1, by omega⟩ }) := by
  by_cases h : 0 < s.sp.val
  · exact .inr ⟨h, by simp [State.pop, h]⟩
  · exact .inl ⟨by omega, by simp [State.pop, h]⟩

/-! ### Flags and timer -/

theorem flagByte_cases (b : Bool) : (b = true ∧ flagByte b = 1) ∨ (b = false ∧ flagByte b = 0) := by
  cases b <;> simp [flagByte]

/-- The timer as a number: the value less the whole ticks, in truncated subtraction (R144). -/
theorem timerAt_toNat (u : Nat) (value : Byte) (stamp now : Nat) :
    (timerAt u value stamp now).toNat = value.toNat - (now - stamp) * 60 / u := by
  have he : elapsedUnits stamp now = now - stamp := by
    unfold elapsedUnits
    split <;> omega
  have hv : value.toNat < 256 := value.isLt
  simp only [timerAt, wholeTicks, he, Config.timerRate]
  split
  · rw [BitVec.toNat_ofNat]
    exact Nat.mod_eq_of_lt (lt_of_le_of_lt (Nat.sub_le _ _) hv)
  · have : value.toNat - (now - stamp) * 60 / u = 0 := Nat.sub_eq_zero_of_le (by omega)
    rw [this]
    rfl

/-! ### The step around execute -/

/-- A step that goes on came from a cycle that went on, and differs from it in the input ports only. -/
theorem endStep_next {o : Host.Outcome State Fault Refusal} {t : State} (h : endStep o = .next t) :
    ∃ u, o = .next u ∧ t = u.drawInputs := by
  cases o with
  | next u => exact ⟨u, rfl, by simpa [endStep] using h.symm⟩
  | fault r => cases r
  | refused r => cases h

theorem cycle_instr {i : Instr} (h : decode s.fetchWord = .instr i) : cycle s = exec i s.fetch := by
  simp [cycle, runDecoded, h]

theorem cycle_unrecognized {w : Word} (h : decode s.fetchWord = .unrecognized w) :
    cycle s = .next (s.fetch.raise .unrecognized) := by
  simp [cycle, runDecoded, h]

end Sys2Proof.Machine
end

