-- ==== Sys2Proof/Laws/Display.lean ====
section
/-! SUPPORT. What a DRAW does to one pixel and to the collision seen, row by row and column by column. -/

namespace Sys2Proof.Machine

theorem Framebuffer.pixel_cleared (x : Fin 64) (y : Fin 32) : clearedFramebuffer.pixel x y = false := by
  simp [Framebuffer.pixel, clearedFramebuffer]

theorem Framebuffer.pixel_toggle (fb : Framebuffer) (x px : Fin 64) (y py : Fin 32) :
    (fb.toggle x y).pixel px py = if px = x ∧ py = y then !fb.pixel px py else fb.pixel px py := by
  simp only [Framebuffer.pixel, Framebuffer.toggle]
  by_cases hy : py = y
  · subst hy
    by_cases hx : px = x
    · subst hx
      simp
    · have : x.val ≠ px.val := fun e => hx (Fin.ext e.symm)
      simp [hx, this]
  · have : y.val ≠ py.val := fun e => hy (Fin.ext e.symm)
    simp [hy, this]

/-- Two framebuffers with the same pixels are the same. -/
theorem Framebuffer.ext {f g : Framebuffer} (h : ∀ x y, f.pixel x y = g.pixel x y) : f = g := by
  apply Vector.ext
  intro y hy
  apply Vector.ext
  intro x hx
  exact h ⟨x, hx⟩ ⟨y, hy⟩

/-- The pixel is under one of the first `m` columns of the row. -/
def underColumns (x0 y : Nat) (b : Byte) (m : Nat) (px : Fin 64) (py : Fin 32) : Prop :=
  ∃ c < m, spriteBit b c = true ∧ px = wrapColumn (x0 + c) ∧ py = wrapRow y

/-- The pixel is under one of the first `n` rows of the sprite (R132). -/
def underSprite (x0 y0 : Nat) (row : Nat → Byte) (n : Nat) (px : Fin 64) (py : Fin 32) : Prop :=
  ∃ r < n, underColumns x0 (y0 + r) (row r) 8 px py

theorem wrapColumn_inj {x0 c d : Nat} (hc : c < 64) (hd : d < 64) (h : wrapColumn (x0 + c) = wrapColumn (x0 + d)) :
    c = d := by
  have : (x0 + c) % 64 = (x0 + d) % 64 := congrArg Fin.val h
  omega

theorem wrapRow_inj {y0 r q : Nat} (hr : r < 32) (hq : q < 32) (h : wrapRow (y0 + r) = wrapRow (y0 + q)) : r = q := by
  have : (y0 + r) % 32 = (y0 + q) % 32 := congrArg Fin.val h
  omega

/-- What some drawing steps, which touch each pixel of `P` once and no other, do to a drawing. -/
structure Drawn (d e : Drawing) (P : Fin 64 → Fin 32 → Prop) : Prop where
  toggled : ∀ px py, P px py → e.1.pixel px py = !d.1.pixel px py
  kept : ∀ px py, ¬ P px py → e.1.pixel px py = d.1.pixel px py
  collision : e.2 = true ↔ d.2 = true ∨ ∃ px py, P px py ∧ d.1.pixel px py = true

theorem Drawn.refl (d : Drawing) {P : Fin 64 → Fin 32 → Prop} (h : ∀ px py, ¬ P px py) : Drawn d d P where
  toggled px py hp := absurd hp (h px py)
  kept _ _ _ := rfl
  collision := ⟨.inl, fun hh => hh.elim id fun ⟨px, py, hp, _⟩ => absurd hp (h px py)⟩

/-- Two drawing steps one after the other, over pixels that do not meet. -/
theorem Drawn.trans {d e f : Drawing} {P Q R : Fin 64 → Fin 32 → Prop} (h1 : Drawn d e P) (h2 : Drawn e f Q)
    (hR : ∀ px py, R px py ↔ P px py ∨ Q px py) (hdisj : ∀ px py, P px py → ¬ Q px py) : Drawn d f R where
  toggled px py h := by
    rcases (hR px py).mp h with hp | hq
    · rw [h2.kept px py (hdisj px py hp), h1.toggled px py hp]
    · rw [h2.toggled px py hq, h1.kept px py fun hp => hdisj px py hp hq]
  kept px py h := by
    rw [h2.kept px py fun hq => h ((hR px py).mpr (.inr hq)), h1.kept px py fun hp => h ((hR px py).mpr (.inl hp))]
  collision := by
    rw [h2.collision, h1.collision]
    constructor
    · rintro ((hd | ⟨px, py, hp, hv⟩) | ⟨px, py, hq, hv⟩)
      · exact .inl hd
      · exact .inr ⟨px, py, (hR px py).mpr (.inl hp), hv⟩
      · rw [h1.kept px py fun hp => hdisj px py hp hq] at hv
        exact .inr ⟨px, py, (hR px py).mpr (.inr hq), hv⟩
    · rintro (hd | ⟨px, py, hr, hv⟩)
      · exact .inl (.inl hd)
      · rcases (hR px py).mp hr with hp | hq
        · exact .inl (.inr ⟨px, py, hp, hv⟩)
        · exact .inr ⟨px, py, hq, by rw [h1.kept px py fun hp => hdisj px py hp hq]; exact hv⟩

theorem drawColumn_drawn (x0 y : Nat) (b : Byte) (d : Drawing) (c : Nat) :
    Drawn d (drawColumn x0 y b d c)
      (fun px py => spriteBit b c = true ∧ px = wrapColumn (x0 + c) ∧ py = wrapRow y) := by
  by_cases hb : spriteBit b c = true
  · simp only [drawColumn, hb, if_true, true_and]
    refine ⟨?_, ?_, ?_⟩
    · rintro px py ⟨rfl, rfl⟩
      simp [Framebuffer.pixel_toggle]
    · intro px py h
      simp [Framebuffer.pixel_toggle, h]
    · constructor
      · intro h
        rcases Bool.or_eq_true _ _ ▸ h with h | h
        · exact .inl h
        · exact .inr ⟨_, _, ⟨rfl, rfl⟩, h⟩
      · rintro (h | ⟨px, py, ⟨rfl, rfl⟩, h⟩) <;> simp [h]
  · simp only [drawColumn, hb, if_false, Bool.false_eq_true]
    exact Drawn.refl d fun px py h => by simp_all

theorem drawColumns_drawn (x0 y : Nat) (b : Byte) (d : Drawing) {m : Nat} (hm : m ≤ 8) :
    Drawn d ((List.range m).foldl (drawColumn x0 y b) d) (underColumns x0 y b m) := by
  induction m with
  | zero => exact Drawn.refl d fun px py ⟨c, hc, _⟩ => by omega
  | succ k ih =>
    rw [List.range_succ, List.foldl_append, List.foldl_cons, List.foldl_nil]
    refine (ih (by omega)).trans (drawColumn_drawn x0 y b _ k) ?_ ?_
    · intro px py
      constructor
      · rintro ⟨c, hc, h⟩
        by_cases hck : c = k
        · exact .inr (hck ▸ h)
        · exact .inl ⟨c, by omega, h⟩
      · rintro (⟨c, hc, h⟩ | h)
        · exact ⟨c, by omega, h⟩
        · exact ⟨k, by omega, h⟩
    · rintro px py ⟨c, hc, _, hx, _⟩ ⟨_, hx', _⟩
      have := wrapColumn_inj (by omega) (by omega) (hx.symm.trans hx')
      omega

/-- All that the rows of a sprite do to a drawing (R131, R132, R134). -/
theorem drawRows_drawn (x0 y0 : Nat) (row : Nat → Byte) (d : Drawing) {n : Nat} (hn : n ≤ 32) :
    Drawn d (drawRows x0 y0 row n d) (underSprite x0 y0 row n) := by
  induction n with
  | zero => exact Drawn.refl d fun px py ⟨r, hr, _⟩ => by omega
  | succ k ih =>
    refine (ih (by omega)).trans (drawColumns_drawn x0 (y0 + k) (row k) _ (le_refl 8)) ?_ ?_
    · intro px py
      constructor
      · rintro ⟨r, hr, h⟩
        by_cases hrk : r = k
        · exact .inr (hrk ▸ h)
        · exact .inl ⟨r, by omega, h⟩
      · rintro (⟨r, hr, h⟩ | h)
        · exact ⟨r, by omega, h⟩
        · exact ⟨k, by omega, h⟩
    · rintro px py ⟨r, hr, _, _, _, _, hy⟩ ⟨_, _, _, _, hy'⟩
      have := wrapRow_inj (by omega) (by omega) (hy.symm.trans hy')
      omega

/-- All that DRAW's drawing does to the machine's framebuffer and to the collision seen. -/
theorem State.drawing_drawn (s : State) (x y : Reg) (n : Fin 16) :
    Drawn (s.fb, false) (s.drawing x y n.val)
      (underSprite (s.reg x).toNat (s.reg y).toNat (fun row => s.readByte (s.indexed row)) n.val) :=
  drawRows_drawn _ _ _ _ (by omega)

end Sys2Proof.Machine
end

