-- ==== Sys2Proof/Laws/PerInstr.lean ====
section
/-! SUPPORT. The per-instruction family RowInTable: an instruction is well-formed and its row is a row of the opcode table
(30_encoding.md R53, R54). -/

namespace Sys2Proof.Laws.RowInTable

/-- The instruction's operands fit their fields, and its row stands in the table. -/
def Statement (i : Instr) : Prop := i.wellFormed = true ∧ rowOf i ∈ opcodeTable

theorem clear : Statement .clear := ⟨Instr.wellFormed_all _, by simp [opcodeTable, rowOf]⟩

theorem ret : Statement .ret := ⟨Instr.wellFormed_all _, by simp [opcodeTable, rowOf]⟩

theorem jump (nnn : Addr) : Statement (.jump nnn) := ⟨Instr.wellFormed_all _, by simp [opcodeTable, rowOf]⟩

theorem call (nnn : Addr) : Statement (.call nnn) := ⟨Instr.wellFormed_all _, by simp [opcodeTable, rowOf]⟩

theorem skipEqImm (x : Reg) (nn : Byte) : Statement (.skipEqImm x nn) := ⟨Instr.wellFormed_all _, by simp [opcodeTable, rowOf]⟩

theorem skipNeqImm (x : Reg) (nn : Byte) : Statement (.skipNeqImm x nn) := ⟨Instr.wellFormed_all _, by simp [opcodeTable, rowOf]⟩

theorem skipEqReg (x : Reg) (y : Reg) : Statement (.skipEqReg x y) := ⟨Instr.wellFormed_all _, by simp [opcodeTable, rowOf]⟩

theorem setImm (x : Reg) (nn : Byte) : Statement (.setImm x nn) := ⟨Instr.wellFormed_all _, by simp [opcodeTable, rowOf]⟩

theorem addImm (x : Reg) (nn : Byte) : Statement (.addImm x nn) := ⟨Instr.wellFormed_all _, by simp [opcodeTable, rowOf]⟩

theorem orReg (x : Reg) (y : Reg) : Statement (.orReg x y) := ⟨Instr.wellFormed_all _, by simp [opcodeTable, rowOf]⟩

theorem andReg (x : Reg) (y : Reg) : Statement (.andReg x y) := ⟨Instr.wellFormed_all _, by simp [opcodeTable, rowOf]⟩

theorem xorReg (x : Reg) (y : Reg) : Statement (.xorReg x y) := ⟨Instr.wellFormed_all _, by simp [opcodeTable, rowOf]⟩

theorem addReg (x : Reg) (y : Reg) : Statement (.addReg x y) := ⟨Instr.wellFormed_all _, by simp [opcodeTable, rowOf]⟩

theorem subReg (x : Reg) (y : Reg) : Statement (.subReg x y) := ⟨Instr.wellFormed_all _, by simp [opcodeTable, rowOf]⟩

theorem shr (x : Reg) (y : Reg) : Statement (.shr x y) := ⟨Instr.wellFormed_all _, by simp [opcodeTable, rowOf]⟩

theorem shl (x : Reg) (y : Reg) : Statement (.shl x y) := ⟨Instr.wellFormed_all _, by simp [opcodeTable, rowOf]⟩

theorem setIndex (nnn : Addr) : Statement (.setIndex nnn) := ⟨Instr.wellFormed_all _, by simp [opcodeTable, rowOf]⟩

theorem random (x : Reg) (nn : Byte) : Statement (.random x nn) := ⟨Instr.wellFormed_all _, by simp [opcodeTable, rowOf]⟩

theorem draw (x : Reg) (y : Reg) (n : Fin 16) : Statement (.draw x y n) := ⟨Instr.wellFormed_all _, by simp [opcodeTable, rowOf]⟩

theorem skipIfKey (x : Reg) : Statement (.skipIfKey x) := ⟨Instr.wellFormed_all _, by simp [opcodeTable, rowOf]⟩

theorem skipIfNotKey (x : Reg) : Statement (.skipIfNotKey x) := ⟨Instr.wellFormed_all _, by simp [opcodeTable, rowOf]⟩

theorem getDelayTimer (x : Reg) : Statement (.getDelayTimer x) := ⟨Instr.wellFormed_all _, by simp [opcodeTable, rowOf]⟩

theorem setDelayTimer (x : Reg) : Statement (.setDelayTimer x) := ⟨Instr.wellFormed_all _, by simp [opcodeTable, rowOf]⟩

theorem addToIndex (x : Reg) : Statement (.addToIndex x) := ⟨Instr.wellFormed_all _, by simp [opcodeTable, rowOf]⟩

theorem loadFontSprite (x : Reg) : Statement (.loadFontSprite x) := ⟨Instr.wellFormed_all _, by simp [opcodeTable, rowOf]⟩

theorem storeBcd (x : Reg) : Statement (.storeBcd x) := ⟨Instr.wellFormed_all _, by simp [opcodeTable, rowOf]⟩

theorem loadRegisters (x : Reg) : Statement (.loadRegisters x) := ⟨Instr.wellFormed_all _, by simp [opcodeTable, rowOf]⟩

end Sys2Proof.Laws.RowInTable
end

