-- ==== Sys2Proof/Tests/Slice0.lean ====
section
/-! SUPPORT. The model's own tests. Every expected value is copied from the spec's vectors (95_test_vectors.md; a test's
docstring names its vectors T-…) or counted by hand from a rule that the docstring names. The last part gives, for every
obligation with hypotheses, states and operands that meet them. -/

namespace Sys2Proof.Tests

open Sys2Proof Sys2Proof.Machine

set_option maxRecDepth 8000

/-! ### Helpers -/

/-- The state with these registers written. -/
def withRegs (rs : List (Reg × Byte)) (s : State) : State := rs.foldl (fun t r => t.setReg r.1 r.2) s

/-- The state with these bytes stored from `addr` up. -/
def withBytes (addr : Nat) (bs : List Byte) (s : State) : State := { s with mem := s.mem.writeBytes addr bs }

/-- The state with these pixels set. -/
def withPixels (ps : List (Fin 64 × Fin 32)) (s : State) : State :=
  { s with fb := ps.foldl (fun fb p => fb.toggle p.1 p.2) s.fb }

/-- What the host's Step leaves when `w` lies at pc; none if it does not complete. -/
def ran (w : Nat) (s : State) (now : Nat := 0) (rnd : Byte := 0) : Option State :=
  match hostOp (.step now rnd) (s.withFetchWord 16 w) with
  | .next (_, t) => some t
  | .fault _ => none
  | .refused _ => none

/-- The state another host operation leaves; none if it does not complete. -/
def after (op : HostOp) (s : State) : Option State :=
  match hostOp op s with
  | .next (_, t) => some t
  | .fault _ => none
  | .refused _ => none

/-- The columns of the pixels that are set in row `y`. -/
def litRow (s : State) (y : Fin 32) : List Nat := ((List.finRange 64).filter fun x => s.fb.pixel x y).map (·.val)

/-- The reset state with `I` given. -/
def atIndex (i : Word) : State := { State.reset with i := i }

/-- The reset state with `pc` given. -/
def atPc (pc : Addr) : State := { State.reset with pc := pc }

/-- The reset state with `depth` entries of 0x202 on the call stack. -/
def atDepth (depth : Fin 17) : State := { State.reset with sp := depth, stack := Vector.replicate 16 0x202#12 }

/-! ### Well-formedness refuses ill-formed operands (R51, R53, R80) -/

theorem test_register_number_16_is_ill_formed : operandsFit [(16, 16)] = false := by decide
theorem test_immediate_256_is_ill_formed : operandsFit [nibbleOperand 15, (256, 256)] = false := by decide
theorem test_address_4096_is_ill_formed : operandsFit [(4096, 4096)] = false := by decide
theorem test_sprite_height_16_is_ill_formed : operandsFit [nibbleOperand 0, nibbleOperand 0, (16, 16)] = false := by decide
theorem test_largest_operands_are_well_formed :
    Instr.wellFormed (.draw 15 15 15) = true ∧ Instr.wellFormed (.setImm 15 0xFF#8) = true ∧
      Instr.wellFormed (.jump 0xFFF#12) = true := by decide
theorem test_key_index_16_is_ill_formed :
    HostOp.wellFormed (.setKeyState 16 true) = false ∧ HostOp.wellFormed (.setKeyState 15 true) = true := by decide

/-! ### Decoding: the words of T-DE, every constructor (R54) -/

/-- T-DE1, T-DE2, T-DE11, and the pattern 00EE. -/
theorem test_decode_clear_ret_jump_call :
    decode 0x00E0#16 = .instr .clear ∧ decode 0x00EE#16 = .instr .ret ∧
      decode 0x1ABC#16 = .instr (.jump 0xABC#12) ∧ decode 0x2000#16 = .instr (.call 0x000#12) := by decide
/-- T-DE12 to T-DE14, T-DE17, T-DE18. -/
theorem test_decode_skips_and_immediates :
    decode 0x3FFF#16 = .instr (.skipEqImm 15 0xFF#8) ∧ decode 0x4A00#16 = .instr (.skipNeqImm 10 0x00#8) ∧
      decode 0x5120#16 = .instr (.skipEqReg 1 2) ∧ decode 0x6000#16 = .instr (.setImm 0 0x00#8) ∧
      decode 0x7FFF#16 = .instr (.addImm 15 0xFF#8) := by decide
/-- T-DE20 to T-DE25, T-DE29. -/
theorem test_decode_register_register :
    decode 0x8121#16 = .instr (.orReg 1 2) ∧ decode 0x8122#16 = .instr (.andReg 1 2) ∧
      decode 0x8123#16 = .instr (.xorReg 1 2) ∧ decode 0x8124#16 = .instr (.addReg 1 2) ∧
      decode 0x8125#16 = .instr (.subReg 1 2) ∧ decode 0x8126#16 = .instr (.shr 1 2) ∧
      decode 0x812E#16 = .instr (.shl 1 2) := by decide
/-- T-DE32, T-DE34, T-DE35, T-DE37, T-DE38. -/
theorem test_decode_index_random_draw_keys :
    decode 0xA123#16 = .instr (.setIndex 0x123#12) ∧ decode 0xC1FF#16 = .instr (.random 1 0xFF#8) ∧
      decode 0xD125#16 = .instr (.draw 1 2 5) ∧ decode 0xE19E#16 = .instr (.skipIfKey 1) ∧
      decode 0xE1A1#16 = .instr (.skipIfNotKey 1) := by decide
/-- T-DE42, T-DE44, T-DE46, T-DE47, T-DE48, T-DE50. -/
theorem test_decode_group_f :
    decode 0xF107#16 = .instr (.getDelayTimer 1) ∧ decode 0xF115#16 = .instr (.setDelayTimer 1) ∧
      decode 0xF11E#16 = .instr (.addToIndex 1) ∧ decode 0xF129#16 = .instr (.loadFontSprite 1) ∧
      decode 0xF133#16 = .instr (.storeBcd 1) ∧ decode 0xF165#16 = .instr (.loadRegisters 1) := by decide
/-- T-DE3 to T-DE9, T-DE15, T-DE16, T-DE19, T-DE26 to T-DE28, T-DE30, T-DE31, T-DE33, T-DE39 to T-DE41, T-DE43, T-DE45,
T-DE49, T-DE51 to T-DE56. -/
theorem test_decode_unrecognized :
    ([0xFFFF#16, 0x0000#16, 0x00E1#16, 0x00EF#16, 0x00FE#16, 0x0123#16, 0x0FFF#16, 0x5121#16, 0x512F#16, 0x8120#16] ++
      [0x8127#16, 0x8128#16, 0x812D#16, 0x812F#16, 0x9120#16, 0xB123#16, 0xE19F#16, 0xE1A0#16, 0xE100#16] ++
      [0xF10A#16, 0xF118#16, 0xF155#16, 0xF175#16, 0xF185#16, 0xF100#16, 0xF1FF#16, 0xEE00#16, 0xE000#16]).all
      (fun w => decode w == .unrecognized w) = true := by decide
/-- The encoder writes the same words. -/
theorem test_encode_writes_the_words :
    encode (.jump 0xABC#12) = 0x1ABC#16 ∧ encode (.shl 1 2) = 0x812E#16 ∧ encode (.draw 1 2 5) = 0xD125#16 ∧
      encode (.random 1 0xFF#8) = 0xC1FF#16 ∧ encode (.loadRegisters 1) = 0xF165#16 := by decide
/-- The table's bit numbering: bits 15:12 are the first hexadecimal digit, and the first byte in memory is the high one. -/
theorem test_decode_table_word :
    decodeTableWord 16 0x1ABC = some (.jump 0xABC#12) ∧ decodeTableWord 16 0xBC1A = none := by decide

/-- The assembly column of programs P2, P3 and P5. -/
theorem test_assembly_text :
    Instr.assembly (.setImm 0 0xCD#8) = "SET_IMM V0, 0xCD" ∧ Instr.assembly (.call 0x20A#12) = "CALL 0x20A" ∧
      Instr.assembly (.draw 0 1 2) = "DRAW V0, V1, 2" ∧ Instr.assembly (.skipIfNotKey 2) = "SKIP_IF_NOT_KEY V2" ∧
      Instr.assembly .ret = "RETURN" := by decide
/-- The table of R76 and that of R150. -/
theorem test_result_codes :
    [Status.ok, .unrecognized, .stackUnderflow, .stackOverflow].map Status.code = [0, 1, 2, 3] ∧
      LoadResult.code .loadOverflow = 1 := by decide

/-! ### Fetch and step (R71 to R73; T-FE) -/

/-- T-FE1, big-endian. -/
theorem test_fetch_is_big_endian :
    (after (.step 0 0) (withBytes 0x200 [0x12, 0x34] State.reset)).map (fun t => (t.pc, t.status, t.word))
      = some (0x234#12, .ok, 0x1234#16) := by decide
/-- T-FE3, the low byte of a word at 0xFFF is the font's first byte, and pc wraps. -/
theorem test_fetch_wraps_at_the_top :
    (after (.step 0 0) (withBytes 0xFFF [0x60] (atPc 0xFFF))).map (fun t => (t.reg 0, t.pc, t.word))
      = some (0xF0#8, 0x001#12, 0x60F0#16) := by decide
/-- T-FE6, the reset state with nothing loaded. -/
theorem test_step_from_reset_is_unrecognized :
    (after (.step 0 0) State.reset).map (fun t => (t.pc, t.status, t.word))
      = some (0x202#12, .unrecognized, 0x0000#16) := by decide
/-- T-FL4. -/
theorem test_unrecognized_word_changes_no_register :
    (ran 0x8120 (withRegs [(1, 5), (2, 9)] State.reset)).map (fun t => (t.reg 1, t.pc, t.status, t.word))
      = some (5#8, 0x202#12, .unrecognized, 0x8120#16) := by decide
/-- `step` runs the word that withFetchWord places: W1's JUMP. -/
theorem test_step_runs_the_placed_word :
    (match step (State.reset.withFetchWord 16 0x1ABC) with
      | .next t => t.pc == 0xABC#12 && t.status == .ok
      | .fault _ => false
      | .refused _ => false) = true := by decide

/-! ### Control transfer (T-CF) -/

/-- T-CF3. -/
theorem test_jump : (ran 0x1FFF (atPc 0xFFE)).map (fun t => (t.pc, t.status)) = some (0xFFF#12, .ok) := by decide
/-- T-CF4 and T-CF5: the address after the CALL is pushed, modulo 4096. -/
theorem test_call_pushes_the_next_address :
    (ran 0x220A (atPc 0x204)).map (fun t => (t.pc, t.sp, t.stack[0])) = some (0x20A#12, 1, 0x206#12) ∧
      (ran 0x2300 (atPc 0xFFE)).map (fun t => (t.pc, t.stack[0])) = some (0x300#12, 0x000#12) := by decide
/-- T-CF6 and T-CF7: the sixteenth entry fits, a seventeenth does not. -/
theorem test_call_on_a_nearly_full_and_a_full_stack :
    (ran 0x2300 (atDepth 15)).map (fun t => (t.pc, t.sp, t.status)) = some (0x300#12, 16, .ok) ∧
      (ran 0x2300 (atDepth 16)).map (fun t => (t.pc, t.sp, t.status)) = some (0x202#12, 16, .stackOverflow) := by decide
/-- T-CF8. -/
theorem test_return_pops :
    (ran 0x00EE { atPc 0x20C with sp := 1, stack := (atPc 0).stack.set 0 0x206#12 }).map (fun t => (t.pc, t.sp, t.status))
      = some (0x206#12, 0, .ok) := by decide
/-- T-CF10. -/
theorem test_return_on_an_empty_stack :
    (ran 0x00EE State.reset).map (fun t => (t.pc, t.sp, t.status)) = some (0x202#12, 0, .stackUnderflow) := by decide
/-- T-CF12 and T-CF14. -/
theorem test_skip_eq_imm :
    (ran 0x3100 (withRegs [(1, 1)] (atPc 0x208))).map (·.pc) = some 0x20A#12 ∧
      (ran 0x30AA (withRegs [(0, 0xAA)] (atPc 0xFFE))).map (·.pc) = some 0x002#12 := by decide
/-- T-CF15 and T-CF16. -/
theorem test_skip_neq_imm :
    (ran 0x4205 (withRegs [(2, 5)] (atPc 0x300))).map (·.pc) = some 0x302#12 ∧
      (ran 0x4206 (withRegs [(2, 5)] (atPc 0x300))).map (·.pc) = some 0x304#12 := by decide
/-- T-CF17 and T-CF18. -/
theorem test_skip_eq_reg :
    (ran 0x5030 (withRegs [(0, 7), (3, 7)] (atPc 0x210))).map (·.pc) = some 0x214#12 ∧
      (ran 0x5030 (withRegs [(0, 7), (3, 8)] (atPc 0x210))).map (·.pc) = some 0x212#12 := by decide

/-! ### Arithmetic and logic (T-AL) -/

/-- R100: the plain load. -/
theorem test_set_imm : (ran 0x63A5 State.reset).map (fun t => (t.reg 3, t.pc)) = some (0xA5#8, 0x202#12) := by decide
/-- T-AL5: the sum wraps and VF keeps its value. -/
theorem test_add_imm_leaves_the_flag :
    (ran 0x7102 (withRegs [(1, 0xFF), (15, 1)] State.reset)).map (fun t => (t.reg 1, t.reg 15)) = some (1#8, 1#8) := by decide
/-- T-AL7. -/
theorem test_add_imm_to_register_15 :
    (ran 0x7F02 (withRegs [(15, 0xFF)] State.reset)).map (·.reg 15) = some 1#8 := by decide
/-- T-AL9. -/
theorem test_or : (ran 0x8011 (withRegs [(0, 0x0F), (1, 0xF0), (15, 0x55)] State.reset)).map
    (fun t => (t.reg 0, t.reg 1, t.reg 15)) = some (0xFF#8, 0xF0#8, 0x55#8) := by decide
/-- T-AL11. -/
theorem test_and : (ran 0x8012 (withRegs [(0, 0x3C), (1, 0x0F), (15, 0x55)] State.reset)).map
    (fun t => (t.reg 0, t.reg 1, t.reg 15)) = some (0x0C#8, 0x0F#8, 0x55#8) := by decide
/-- T-AL12. -/
theorem test_xor : (ran 0x8013 (withRegs [(0, 0xFF), (1, 0x0F), (15, 0x55)] State.reset)).map
    (fun t => (t.reg 0, t.reg 1, t.reg 15)) = some (0xF0#8, 0x0F#8, 0x55#8) := by decide
/-- T-AL14 and T-AL15. -/
theorem test_add_reg_carry :
    (ran 0x8014 (withRegs [(0, 0xFF), (1, 0x02)] State.reset)).map (fun t => (t.reg 0, t.reg 15)) = some (1#8, 1#8) ∧
      (ran 0x8014 (withRegs [(0, 0x80), (1, 0x7F), (15, 1)] State.reset)).map (fun t => (t.reg 0, t.reg 15))
        = some (0xFF#8, 0#8) := by decide
/-- T-AL19 and T-AL21: the flag wins over the sum, and operands are read before VF is written. -/
theorem test_add_reg_with_register_15 :
    (ran 0x8F14 (withRegs [(15, 0xF0), (1, 0x20)] State.reset)).map (·.reg 15) = some 1#8 ∧
      (ran 0x80F4 (withRegs [(0, 0xFE), (15, 3)] State.reset)).map (fun t => (t.reg 0, t.reg 15)) = some (1#8, 1#8) := by decide
/-- T-AL22 and T-AL24. -/
theorem test_sub_reg_no_borrow :
    (ran 0x8015 (withRegs [(0, 5), (1, 7), (15, 1)] State.reset)).map (fun t => (t.reg 0, t.reg 15)) = some (0xFE#8, 0#8) ∧
      (ran 0x8015 (withRegs [(0, 7), (1, 7)] State.reset)).map (fun t => (t.reg 0, t.reg 15)) = some (0#8, 1#8) := by decide
/-- T-AL27 and T-AL28. -/
theorem test_sub_reg_with_register_15 :
    (ran 0x8F15 (withRegs [(15, 9), (1, 3)] State.reset)).map (·.reg 15) = some 1#8 ∧
      (ran 0x80F5 (withRegs [(0, 0), (15, 1)] State.reset)).map (fun t => (t.reg 0, t.reg 15)) = some (0xFF#8, 0#8) := by decide
/-- T-AL29 and T-AL31. -/
theorem test_shr :
    (ran 0x8206 (withRegs [(2, 5)] State.reset)).map (fun t => (t.reg 2, t.reg 15)) = some (2#8, 1#8) ∧
      (ran 0x8236 (withRegs [(2, 0x80), (3, 0xFF)] State.reset)).map (fun t => (t.reg 2, t.reg 3, t.reg 15))
        = some (0x40#8, 0xFF#8, 0#8) := by decide
/-- T-AL32 and T-AL37. -/
theorem test_shifts_of_register_15 :
    (ran 0x8F06 (withRegs [(15, 3)] State.reset)).map (·.reg 15) = some 1#8 ∧
      (ran 0x8F0E (withRegs [(15, 0x80)] State.reset)).map (·.reg 15) = some 1#8 := by decide
/-- T-AL34 and T-AL36. -/
theorem test_shl :
    (ran 0x820E (withRegs [(2, 0x81)] State.reset)).map (fun t => (t.reg 2, t.reg 15)) = some (2#8, 1#8) ∧
      (ran 0x823E (withRegs [(2, 0x40), (3, 0xFF)] State.reset)).map (fun t => (t.reg 2, t.reg 3, t.reg 15))
        = some (0x80#8, 0xFF#8, 0#8) := by decide
/-- T-AL38 and T-AL41. -/
theorem test_random_under_the_mask :
    (ran 0xC30F State.reset 0 0xA7).map (·.reg 3) = some 0x07#8 ∧
      (ran 0xCFF0 (withRegs [(15, 1)] State.reset) 0 0xFF).map (·.reg 15) = some 0xF0#8 := by decide

/-! ### Index register and memory (T-IX) -/

/-- T-IX2. -/
theorem test_set_index : (ran 0xAFFF (atIndex 0xFFFF)).map (·.i) = some 0x0FFF#16 := by decide
/-- T-IX6 and T-IX7. -/
theorem test_add_to_index :
    (ran 0xF21E (withRegs [(2, 1)] (atIndex 0xFFFF))).map (fun t => (t.i, t.reg 15)) = some (0x0000#16, 0#8) ∧
      (ran 0xFF1E (withRegs [(15, 0xFF)] (atIndex 0x0FF0))).map (fun t => (t.i, t.reg 15)) = some (0x10EF#16, 0xFF#8) := by
  decide
/-- T-IX10 and T-IX11. -/
theorem test_load_font_sprite :
    (ran 0xF029 (withRegs [(0, 0x0F)] State.reset)).map (·.i) = some 0x004B#16 ∧
      (ran 0xF029 (withRegs [(0, 0x1A)] State.reset)).map (·.i) = some 0x0032#16 := by decide
/-- T-IX12. -/
theorem test_store_bcd_of_205 :
    (ran 0xF033 (withRegs [(0, 0xCD)] (atIndex 0x300))).map
      (fun t => (t.readByte 0x300, t.readByte 0x301, t.readByte 0x302, t.i)) = some (2#8, 0#8, 5#8, 0x300#16) := by decide
/-- T-IX17: `I` above 0xFFF, a store that wraps into the font. -/
theorem test_store_bcd_wraps_into_the_font :
    (ran 0xF033 (withRegs [(0, 0x7B)] (atIndex 0x1FFF))).map
      (fun t => (t.readByte 0xFFF, t.readByte 0x000, t.readByte 0x001, t.readByte 0x002))
      = some (1#8, 2#8, 3#8, 0x90#8) := by decide
/-- T-IX20: the register above `x` and `I` stay. -/
theorem test_load_registers :
    (ran 0xF265 (withRegs [(3, 0xEE)] (withBytes 0x300 [2, 0, 5, 0x77] (atIndex 0x300)))).map
      (fun t => (t.reg 0, t.reg 1, t.reg 2, t.reg 3, t.i)) = some (2#8, 0#8, 5#8, 0xEE#8, 0x300#16) := by decide
/-- T-IX23: all sixteen registers, from the font table. -/
theorem test_load_all_registers :
    (ran 0xFF65 State.reset).map (·.v.toList)
      = some ([0xF0#8, 0x90#8, 0x90#8, 0x90#8, 0xF0#8, 0x20#8, 0x60#8, 0x20#8] ++
          [0x20#8, 0x70#8, 0xF0#8, 0x10#8, 0xF0#8, 0x80#8, 0xF0#8, 0xF0#8]) := by decide

/-! ### Display (T-DR) -/

/-- T-DR2: eight columns wrap from 63 to 0, in row 0 only. -/
theorem test_draw_wraps_each_axis :
    (ran 0xD011 (withRegs [(0, 0x3F)] (withBytes 0x300 [0xFF] (atIndex 0x300)))).map
      (fun t => (litRow t 0, litRow t 1, litRow t 31, t.reg 15)) = some ([0, 1, 2, 3, 4, 5, 6, 63], [], [], 0#8) := by decide
/-- T-DR11: the collision is in the last row only. -/
theorem test_draw_collision_in_the_last_row :
    (ran 0xD013 (withPixels [(0, 2)] (withBytes 0x300 [0x80, 0x80, 0x80] (atIndex 0x300)))).map
      (fun t => (litRow t 0, litRow t 1, litRow t 2, t.reg 15)) = some ([0], [0], [], 1#8) := by decide
/-- T-DR6: no rows, and the flag is still written. -/
theorem test_draw_of_height_0 :
    (ran 0xD010 (withRegs [(15, 1)] (withPixels [(0, 0)] (withBytes 0x300 [0xFF] (atIndex 0x300))))).map
      (fun t => (litRow t 0, t.reg 15)) = some ([0], 0#8) := by decide
/-- T-DR17. -/
theorem test_clear :
    (ran 0x00E0 (withRegs [(15, 1)] (withPixels [(0, 0), (63, 31), (10, 5)] State.reset))).map
      (fun t => (litRow t 0, litRow t 31, litRow t 5, t.reg 15)) = some ([], [], [], 1#8) := by decide

/-! ### Keypad and delay timer (T-KT) -/

/-- T-KT1 and T-KT3. -/
theorem test_skip_if_key :
    (ran 0xE49E (withRegs [(4, 5)] ((atPc 0x220).setKey 5 true))).map (·.pc) = some 0x224#12 ∧
      (ran 0xE49E (withRegs [(4, 5)] (((atPc 0x220).setKey 4 true).setKey 6 true))).map (·.pc) = some 0x222#12 := by decide
/-- T-KT4 and T-KT7: `V[0]` = 0xFF names key 15. -/
theorem test_skip_if_not_key :
    (ran 0xE4A1 (withRegs [(4, 5)] (atPc 0x220))).map (·.pc) = some 0x224#12 ∧
      (ran 0xE0A1 (withRegs [(0, 0xFF)] (State.reset.setKey 15 true))).map (·.pc) = some 0x202#12 := by decide
/-- T-KT9. -/
theorem test_set_delay_timer :
    (ran 0xF015 (withRegs [(0, 0x78)] State.reset) 1000).map (fun t => (t.dtValue, t.dtStamp)) = some (120#8, 1000) := by decide
/-- T-KT10 to T-KT15, at 60 units per second. -/
theorem test_timer_at_60_units_per_second :
    timerAt 60 120 1000 1060 = 60 ∧ timerAt 60 120 1000 1000 = 120 ∧ timerAt 60 120 1000 1119 = 1 ∧
      timerAt 60 120 1000 1120 = 0 ∧ timerAt 60 120 1000 100000 = 0 ∧ timerAt 60 120 1000 999 = 120 ∧
      timerAt 60 255 0 1 = 254 := by decide
/-- T-KT20 to T-KT26, at 1000 units per second. -/
theorem test_timer_at_1000_units_per_second :
    timerAt 1000 120 1000 1016 = 120 ∧ timerAt 1000 120 1000 1017 = 119 ∧ timerAt 1000 120 1000 1033 = 119 ∧
      timerAt 1000 120 1000 1034 = 118 ∧ timerAt 1000 120 1000 2000 = 60 ∧ timerAt 1000 120 1000 2999 = 1 ∧
      timerAt 1000 120 1000 3000 = 0 := by decide
/-- T-KT11: read at the time of the write, whatever TIME_UNITS_PER_SECOND is. -/
theorem test_get_delay_timer_at_once :
    ∃ t, exec (.getDelayTimer 1) { State.reset with dtValue := 120, dtStamp := 1000, now := 1000 } = .next t ∧
      t.reg 1 = 0x78#8 :=
  ⟨_, rfl, by simp [State.timerValue, timerAt, wholeTicks, elapsedUnits, State.reg_setReg]⟩
/-- T-KT16: a timer that was never set reads 0. -/
theorem test_get_delay_timer_never_set :
    ∃ t, exec (.getDelayTimer 1) (withRegs [(1, 0x55)] { State.reset with now := 5 }) = .next t ∧ t.reg 1 = 0x00#8 :=
  ⟨_, rfl, by simp [withRegs, State.timerValue, timerAt, State.reset, State.reg_setReg]⟩

/-! ### Reset, load and keys (T-RL) -/

/-- T-RL2: the longest image. -/
theorem test_load_of_3584_bytes (bs : List Byte) (hl : bs.length = 3584) (hb : ∀ k, k < 3584 → bs.getD k 0 = 0xAB#8) :
    ∃ t, hostOp (.loadProgram bs) State.reset = .next (.loaded .ok, t) ∧
      t.readByte 0x200 = 0xAB#8 ∧ t.readByte 0xFFF = 0xAB#8 ∧ t.readByte 0x1FF = 0x00#8 ∧ t.readByte 0x000 = 0xF0#8 ∧
      t.pc = 0x200#12 := by
  have read (b : Nat) (h : b < 4096) := Memory.read_writeBytes bs [] 0x200 b (by omega) h
  refine ⟨{ State.reset with mem := Memory.writeBytes [] 0x200 bs }, by simp [hostOp, State.loadProgram, hl, State.reset],
    (read _ (by decide)).trans ?_, (read _ (by decide)).trans ?_, (read _ (by decide)).trans ?_,
    (read _ (by decide)).trans ?_, rfl⟩
  · rw [if_pos (by omega)]
    exact hb _ (by decide)
  · rw [if_pos (by omega)]
    exact hb _ (by decide)
  · rw [if_neg (by omega)]
    decide
  · rw [if_neg (by omega)]
    decide
/-- T-RL3: one byte more. -/
theorem test_load_of_3585_bytes :
    hostOp (.loadProgram (List.replicate 3585 0xAB#8)) State.reset = .next (.loaded .loadOverflow, State.reset) := by
  rw [hostOp, State.loadProgram, if_pos (by rw [List.length_replicate]; decide)]
/-- T-RL5: byte 0 of the image is the high byte. -/
theorem test_load_then_step :
    ((after (.loadProgram [0x12, 0x34]) State.reset).bind (after (.step 7 0))).map (fun t => (t.pc, t.word, t.status))
      = some (0x234#12, 0x1234#16, .ok) := by decide
/-- T-RL7. -/
theorem test_reset_releases_keys :
    ((after (.setKeyState 5 true) State.reset).bind (after .reset)).map (·.keyDown 5) = some false := by decide
/-- T-RL8. -/
theorem test_key_pressed_and_released :
    (after (.setKeyState 3 true) State.reset).map (·.keyDown 3) = some true ∧
      ((after (.setKeyState 3 true) State.reset).bind (after (.setKeyState 3 false))).map (·.keyDown 3) = some false := by
  decide
/-- R80, U12. -/
theorem test_key_16_is_refused : after (.setKeyState 16 true) State.reset = none := by decide

/-! ### Witnesses: states and operands that meet the hypotheses of the obligations, clause by clause -/

/-- A step from the reset state answers a next state. -/
theorem step_of_reset_is_next : ∃ t, step State.reset = .next t := ⟨_, rfl⟩

theorem witness_DecodeOfEncodeIsTheInstruction : Instr.wellFormed (.draw 15 15 15) = true := by decide
theorem witness_EncodeOfDecodeIsTheWord : decode 0x812E#16 = .instr (.shl 1 2) := by decide
theorem witness_DecodeAgreesWithTheOpcodeTable : rowOf .clear ∈ opcodeTable ∧ rowOf (.loadRegisters 1) ∈ opcodeTable := by
  decide
theorem witness_OnlyReturnAndCallCanFault : Instr.clear ≠ .ret ∧ ∀ nnn, Instr.clear ≠ .call nnn := by simp
theorem witness_CanonicalMemoryIsDeterminedByItsBytes :
    Memory.wf [] = true ∧ Memory.wf [(0x000, 0x00#8), (0x300, 0xAA#8), (0xFFF, 0x01#8)] = true ∧
      ∀ a, (Memory.write [] 0x300 0xAA#8).read a = Memory.read [(0x300, 0xAA#8)] a :=
  ⟨by decide, by decide, fun _ => rfl⟩
/-- `I` is pc in the middle of memory, and at its top through the wrap of `I`. -/
theorem witness_FetchSeesTheBytesJustStored :
    State.indexed { atPc 0x204 with i := 0x204 } 0 = (0x204#12).toNat ∧
      State.indexed { atPc 0xFFF with i := 0x1FFF } 0 = (0xFFF#12).toNat := by decide
/-- A recognized word, an unrecognized one, and a word that wraps at the top of memory. -/
theorem witness_StepRunsTheDecodedInstruction :
    decode (wordOfBytes ((withBytes 0x200 [0x12, 0x34] State.reset).readByte 0x200)
        ((withBytes 0x200 [0x12, 0x34] State.reset).readByte 0x201)) = .instr (.jump 0x234#12) ∧
      decode (wordOfBytes (State.reset.readByte 0x200) (State.reset.readByte 0x201)) = .unrecognized 0x0000#16 ∧
      wordOfBytes ((withBytes 0xFFF [0x60] State.reset).readByte 0xFFF)
        ((withBytes 0xFFF [0x60] State.reset).readByte (0xFFF + 1)) = 0x60F0#16 := by decide
/-- Each status: Unrecognized, Ok, StackUnderflow, StackOverflow. -/
theorem witness_HostStepReturnsStatusAndFetchedWord :
    (ran 0x8120 State.reset).map (·.status) = some .unrecognized ∧ (ran 0x1ABC State.reset).map (·.status) = some .ok ∧
      (ran 0x00EE State.reset).map (·.status) = some .stackUnderflow ∧
      (ran 0x2300 (atDepth 16)).map (·.status) = some .stackOverflow := by decide
theorem witness_UnrecognizedStepOnlyAdvancesPc : ∀ i, decode State.reset.fetchWord ≠ .instr i := by
  rw [show decode State.reset.fetchWord = .unrecognized 0x0000#16 by decide]
  simp
/-- A jump to itself at the entry point, and at an odd address that wraps. -/
theorem witness_JumpToItselfChangesNothing :
    (withBytes 0x200 [0x12, 0x00] State.reset).fetchWord = encode (.jump 0x200#12) ∧
      (withBytes 0xFFF [0x1F, 0xFF] (atPc 0xFFF)).fetchWord = encode (.jump 0xFFF#12) := by decide
theorem witness_TimeInputNeverDecreases : ∃ t, step State.reset = .next t := step_of_reset_is_next
theorem witness_StepKeepsTheInvariant : State.reset.Inv ∧ ∃ t, step State.reset = .next t :=
  ⟨⟨rfl, Nat.zero_le _⟩, step_of_reset_is_next⟩
/-- A step with `now` at its bound, the other operations, and a state in which memory is not empty and the timer is set. -/
theorem witness_HostOperationsKeepTheInvariant :
    State.Inv { withBytes 0x000 [0xAA] State.reset with dtValue := 9, dtStamp := 5, now := 5 } ∧
      (∀ now rnd, HostOp.step 5 0 = .step now rnd → 5 ≤ now) ∧ (∀ now rnd, HostOp.reset = .step now rnd → 5 ≤ now) ∧
      (after (.step 5 0) { State.reset with dtStamp := 5, now := 5 }).isSome = true := by
  refine ⟨⟨by decide, by decide⟩, ?_, ?_, by decide⟩
  · rintro now rnd h
    cases h
    exact Nat.le_refl 5
  · simp
/-- The two states differ at the depth itself, with the stack empty and with one entry on it. -/
theorem witness_EntriesAboveTheDepthAreUnobservable :
    SameButDeadStack State.reset { State.reset with stack := State.reset.stack.set 0 0xABC#12 } ∧
      SameButDeadStack (atDepth 1) { atDepth 1 with stack := (atDepth 1).stack.set 1 0xABC#12 } ∧
      State.reset.stack ≠ State.reset.stack.set 0 0xABC#12 ∧ ∃ t, step State.reset = .next t :=
  ⟨⟨rfl, by decide⟩, ⟨rfl, by decide⟩, by decide, step_of_reset_is_next⟩
theorem witness_StampOfAZeroTimerIsUnobservable :
    SameButDeadStamp State.reset { State.reset with dtStamp := 7 } ∧
      SameButDeadStamp { State.reset with dtValue := 3 } { State.reset with dtValue := 3 } ∧ ∃ t, step State.reset = .next t :=
  ⟨⟨rfl, .inl rfl⟩, ⟨rfl, .inr rfl⟩, step_of_reset_is_next⟩
/-- The font's first and last byte, and the zero bytes around it, at the bounds of their ranges. -/
theorem witness_ResetLeavesTheListedValues :
    State.reset.resetOp.readByte 0x000 = 0xF0#8 ∧ State.reset.resetOp.readByte 0x04F = 0x80#8 ∧
      State.reset.resetOp.readByte 0x050 = 0x00#8 ∧ State.reset.resetOp.readByte 0xFFF = 0x00#8 := by decide
theorem witness_FirstFetchAfterResetIsAt0x200 :
    ∃ t, State.reset.resetOp.loadProgram [0x12#8, 0x34#8] = (.ok, t) ∧ t.fetchWord = 0x1234#16 := ⟨_, rfl, by decide⟩
/-- The longest image and the empty one, and addresses at the bounds of the three ranges. -/
theorem witness_LoadProgramCopiesFrom0x200 :
    (List.replicate 3584 0xAB#8).length ≤ 3584 ∧ ([] : List Byte).length ≤ 3584 ∧ (3583 < (List.replicate 3584 0xAB#8).length) ∧
      (0x1FF < 4096 ∧ 0x1FF < 0x200) ∧ 0x200 + [0x12#8, 0x34#8].length ≤ 0x202 := by
  rw [List.length_replicate]
  decide
theorem witness_LoadOverflowWritesNothing : 3584 < (List.replicate 3585 0xAB#8).length := by
  rw [List.length_replicate]
  decide
/-- The first index outside the domain, and the last inside. -/
theorem witness_HostReadsPixelsAndWritesOneKey :
    16 ≤ 16 ∧ (after (.setKeyState 16 true) State.reset) = none ∧
      (after (.setKeyState 15 true) State.reset).map (·.keyDown 15) = some true := by decide
/-- One entry, a full stack, none. -/
theorem witness_ReturnPopsIntoPcOrReportsUnderflow :
    (atDepth 1).sp.val = (0 : Fin 16).val + 1 ∧ (atDepth 16).sp.val = (15 : Fin 16).val + 1 ∧ (atDepth 0).sp.val = 0 := by
  decide
/-- Empty, one entry short of full, full. -/
theorem witness_CallPushesPcAndJumpsOrReportsOverflow :
    (atDepth 0).sp.val = (0 : Fin 16).val ∧ (atDepth 15).sp.val = (15 : Fin 16).val ∧ (atDepth 16).sp.val = 16 := by decide
/-- One entry, and a full stack. -/
theorem witness_ReturnCompletesWithAnEntryOnTheStack :
    (atDepth 1).sp.val = (0 : Fin 16).val + 1 ∧ (atDepth 16).sp.val = (15 : Fin 16).val + 1 := by decide
/-- At the last free entry; and one below it, where the subroutine's own CALL has rewritten the entry above. -/
theorem witness_ReturnResumesAfterTheCall :
    ((atDepth 15).sp.val = (15 : Fin 16).val ∧ ∃ t, exec (.call 0x300#12) (atDepth 15) = .next t ∧ t.sp = 16) ∧
      (atDepth 14).sp.val = (14 : Fin 16).val ∧ ∃ t u, exec (.call 0x300#12) (atDepth 14) = .next t ∧
        u = { t with stack := t.stack.set 15 0xABC#12 } ∧ u.sp = t.sp ∧ u.stack[14] = t.stack[14] ∧ u.stack ≠ t.stack :=
  ⟨⟨by decide, _, rfl, by decide⟩, by decide, _, _, rfl, rfl, rfl, by decide, by decide⟩
/-- Each of the five skips. -/
theorem witness_SkipsAddTwoToPcOrDoNothing :
    (∃ x nn, Instr.skipEqImm 0 1 = .skipEqImm x nn) ∧ (∃ x nn, Instr.skipNeqImm 0 1 = .skipNeqImm x nn) ∧
      (∃ x y, Instr.skipEqReg 0 1 = .skipEqReg x y) ∧ (∃ x, Instr.skipIfKey 15 = .skipIfKey x) ∧
      ∃ x, Instr.skipIfNotKey 15 = .skipIfNotKey x :=
  ⟨⟨_, _, rfl⟩, ⟨_, _, rfl⟩, ⟨_, _, rfl⟩, ⟨_, rfl⟩, ⟨_, rfl⟩⟩
/-- For AddRegSumsThenSetsCarry, SubRegSubtractsThenSetsNoBorrow and ShiftsMoveOneBitIntoTheFlag: a destination that is not VF,
and a register that is neither. -/
theorem witness_flag_setters_on_other_registers :
    (0 : Reg) ≠ 15 ∧ (14 : Reg) ≠ 0 ∧ (14 : Reg) ≠ 15 := by decide
/-- The last byte before the three stored ones and the first after them, across the wrap. -/
theorem witness_StoreBcdStoresThreeDigits :
    (∀ k, k < 3 → 0xFFE ≠ ((0x0FFF#16).toNat + k) % 4096) ∧ (∀ k, k < 3 → 0x002 ≠ ((0x0FFF#16).toNat + k) % 4096) := by
  decide
/-- A pixel that goes from set to unset, and a draw in which none does. -/
theorem witness_DrawFlagsAnyPixelThatWentUnset :
    (∃ t, exec (.draw 0 0 1) (withPixels [(0, 0)] (withBytes 0x300 [0x80] (atIndex 0x300))) = .next t ∧
      (withPixels [(0, 0)] (withBytes 0x300 [0x80] (atIndex 0x300))).fb.pixel 0 0 = true ∧ t.fb.pixel 0 0 = false) ∧
    ∃ t, exec (.draw 0 0 0) (withPixels [(0, 0)] State.reset) = .next t ∧
      ∀ px py, (withPixels [(0, 0)] State.reset).fb.pixel px py = true → t.fb.pixel px py = true :=
  ⟨⟨_, rfl, by decide, by decide⟩, _, rfl, fun _ _ h => h⟩
/-- A framebuffer that is clear, and a draw that sets a pixel of it. -/
theorem witness_DrawingTwiceRestoresThePixels :
    ∃ t u, exec (.draw 0 1 1) (withBytes 0x300 [0xC0] (atIndex 0x300)) = .next t ∧
      t.reg 0 = (withBytes 0x300 [0xC0] (atIndex 0x300)).reg 0 ∧ t.reg 1 = (withBytes 0x300 [0xC0] (atIndex 0x300)).reg 1 ∧
      exec (.draw 0 1 1) t = .next u ∧
      (∀ px py, (withBytes 0x300 [0xC0] (atIndex 0x300)).fb.pixel px py = false) ∧ t.fb.pixel 0 0 = true :=
  ⟨_, _, rfl, by decide, by decide, rfl, fun px py => by
    simp [withBytes, atIndex, State.reset, clearedFramebuffer, Framebuffer.pixel], by decide⟩
/-- The lowest and the highest key, the latter named by a value above 15. -/
theorem witness_KeySkipsTestTheKeyNamedByX :
    ((withRegs [(0, 0)] State.reset).reg 0).toNat % 16 = (0 : Fin 16).val ∧
      ((withRegs [(0, 0xFF)] State.reset).reg 0).toNat % 16 = (15 : Fin 16).val := by decide
/-- Two states that agree on the timer alone, at the same time and at a later one, with the value read already 0. -/
theorem witness_TimerReadsOnlyDecay :
    ∃ t, exec (.getDelayTimer 1) State.reset = .next t ∧ t.reg 1 = 0 ∧
      (withRegs [(2, 7)] State.reset).dtValue = State.reset.dtValue ∧
      (withRegs [(2, 7)] State.reset).dtStamp = State.reset.dtStamp ∧
      (withRegs [(2, 7)] State.reset).now = State.reset.now ∧ State.reset.now ≤ State.reset.now + 1 :=
  ⟨_, rfl, by simp [State.timerValue, timerAt, State.reset, State.reg_setReg], rfl, rfl, rfl, Nat.le_succ _⟩
/-- Each piece of state does change in some instruction of its list. -/
theorem witness_EachStateIsWrittenOnlyByItsInstructions :
    (∃ t, exec (.setImm 3 9) State.reset = .next t ∧ t.reg 3 ≠ State.reset.reg 3) ∧
    (∃ t, exec (.loadRegisters 15) State.reset = .next t ∧ t.reg 0 ≠ State.reset.reg 0 ∧ t.reg 15 ≠ State.reset.reg 15) ∧
    (∃ t, exec (.subReg 0 1) State.reset = .next t ∧ t.reg 15 ≠ State.reset.reg 15) ∧
    (∀ x, Instr.clear ≠ .storeBcd x) ∧
    (∃ t, exec (.setIndex 1) State.reset = .next t ∧ t.i ≠ State.reset.i) ∧
    (∃ t, exec (.jump 1) State.reset = .next t ∧ t.pc ≠ State.reset.pc) ∧
    (∃ t, exec (.call 1) State.reset = .next t ∧ t.stack ≠ State.reset.stack ∧ t.sp ≠ State.reset.sp) ∧
    (∃ t, exec (.setDelayTimer 0) (State.reset.setReg 0 1) = .next t ∧ t.dtValue ≠ (State.reset.setReg 0 1).dtValue) ∧
    (∃ t, exec .clear (withPixels [(0, 0)] State.reset) = .next t ∧ t.fb ≠ (withPixels [(0, 0)] State.reset).fb) ∧
    ∃ t, exec .ret State.reset = .next t ∧ t.status ≠ State.reset.status :=
  ⟨⟨_, rfl, by decide⟩, ⟨_, rfl, by decide, by decide⟩, ⟨_, rfl, by decide⟩, by simp, ⟨_, rfl, by decide⟩,
    ⟨_, rfl, by decide⟩, ⟨_, rfl, by decide, by decide⟩, ⟨_, rfl, by decide⟩,
    ⟨_, rfl, by decide⟩, _, rfl, by decide⟩
/-- A flag setter, and an instruction that names V[15] as its destination. -/
theorem witness_OnlyFiveInstructionsSetTheFlag :
    (∃ t, exec (.subReg 0 1) State.reset = .next t ∧ t.reg 15 = 1) ∧
      ∃ t, exec (.setImm 15 9) State.reset = .next t ∧ t.reg 15 ≠ State.reset.reg 15 :=
  ⟨⟨_, rfl, by decide⟩, _, rfl, by decide⟩

end Sys2Proof.Tests
end

