-- ==== Sys2Proof/Proofs/Memory.lean ====
section
/-! The obligations about memory (20_memory.md), from the laws of `Sys2Proof/Laws/Memory.lean`. -/

namespace Sys2Proof.Proofs

open Sys2Proof Sys2Proof.Machine

/-- Settles O6 (R39): the read and the read after a write are the laws of memory; the frame holds by the definition of
`State.writeByte`, which updates the memory field alone. -/
theorem readAfterWriteIsByAddressModulo4096 : Obligations.ReadAfterWriteIsByAddressModulo4096 := by
  unfold Obligations.ReadAfterWriteIsByAddressModulo4096
  intro s a b x
  refine ⟨(State.readByte_mod s a).symm, State.readByte_writeByte s a b x, ?frame⟩
  case frame => rfl

end Sys2Proof.Proofs
end

/-! The obligations about control flow (41_control_flow.md). -/

namespace Sys2Proof.Machine

/-- Pop with an entry on the stack (R14), by the entry's index. -/
theorem State.pop_of_depth_succ {s : State} {k : Fin 16} (hk : s.sp.val = k.val + 1) :
    s.pop = some (s.stack[k], { s with sp := ⟨k.val, by omega⟩ }) := by
  rcases s.pop_cases with ⟨hempty, -⟩ | ⟨_, hpop⟩
  case inl => omega
  case inr =>
    have htop : s.sp.val - 1 = k.val := by omega
    simpa only [htop, Fin.getElem_fin] using hpop

/-- RETURN after a Pop that raises no fault (R90): the popped entry becomes pc. -/
theorem exec_ret_of_pop {s t : State} {a : Addr} (h : s.pop = some (a, t)) : exec .ret s = .next (t.setPc a) := by
  simp only [exec, execRet, h]

end Sys2Proof.Machine

namespace Sys2Proof.Proofs

open Sys2Proof Sys2Proof.Machine

/-- Settles O53 (R90, R14): the depth k + 1 is the Pop that succeeds, and RETURN moves its entry into pc. -/
theorem returnCompletesWithAnEntryOnTheStack : Obligations.ReturnCompletesWithAnEntryOnTheStack := by
  unfold Obligations.ReturnCompletesWithAnEntryOnTheStack
  intro s k hk
  exact exec_ret_of_pop (State.pop_of_depth_succ hk)

end Sys2Proof.Proofs

/-! The obligation about LOAD_REGISTERS (43_index_memory.md R124). -/

namespace Sys2Proof.Machine

/-- LOAD_REGISTERS always completes, with V[0] to V[x] loaded from the effective addresses EA(0) to EA(x) (R124, R125). -/
theorem exec_loadRegisters (x : Reg) (s : State) :
    exec (.loadRegisters x) s = .next (s.loadRegs s.indexed (x.val + 1)) := rfl

/-- What each register holds after V[0] to V[x] are loaded from EA(0) to EA(x). -/
theorem State.reg_loadRegs_indexed (s : State) (x r : Reg) :
    (s.loadRegs s.indexed (x.val + 1)).reg r =
      if r.val ≤ x.val then s.readByte ((s.i.toNat + r.val) % 4096) else s.reg r := by
  have hcount : x.val + 1 ≤ 16 := x.isLt
  rw [State.reg_loadRegs s s.indexed hcount r]
  simp only [Nat.lt_succ_iff, State.indexed]

end Sys2Proof.Machine

namespace Sys2Proof.Proofs

open Sys2Proof Sys2Proof.Machine

/-- Settles O42 (R124): the registers are those of `State.reg_loadRegs_indexed`, and the frame is the law that `loadRegs`
writes the register file alone. -/
theorem loadRegistersLoadsUpToX : Obligations.LoadRegistersLoadsUpToX := by
  unfold Obligations.LoadRegistersLoadsUpToX
  intro s x
  refine ⟨s.loadRegs s.indexed (x.val + 1), exec_loadRegisters x s, ?registers, ?frame⟩
  case registers => exact s.reg_loadRegs_indexed x
  case frame => exact s.loadRegs_eq s.indexed (x.val + 1)

end Sys2Proof.Proofs

/-! The obligation about DRAW's collision flag (44_display.md R131, R134). -/

namespace Sys2Proof.Machine

/-- The pixels that drawing steps turn off are the set ones among those they touch. -/
theorem Drawn.wentUnset_iff {d e : Drawing} {P : Fin 64 → Fin 32 → Prop} (h : Drawn d e P) (px : Fin 64) (py : Fin 32) :
    d.1.pixel px py = true ∧ e.1.pixel px py = false ↔ P px py ∧ d.1.pixel px py = true := by
  by_cases hp : P px py
  case pos => simp [h.toggled px py hp, hp]
  case neg => simp [h.kept px py hp, hp]

/-- From no collision, drawing steps note one exactly when they turn some pixel off (R131). -/
theorem Drawn.collision_iff_exists_wentUnset {fb : Framebuffer} {e : Drawing} {P : Fin 64 → Fin 32 → Prop}
    (h : Drawn (fb, false) e P) : e.2 = true ↔ ∃ px py, fb.pixel px py = true ∧ e.1.pixel px py = false := by
  simp only [h.collision, h.wentUnset_iff, Bool.false_eq_true, false_or]

/-- DRAW always completes, with the drawing's pixels and, written last, its collision in VF (R131, R134). -/
theorem exec_draw (s : State) (x y : Reg) (n : Fin 16) :
    exec (.draw x y n) s =
      .next (State.setReg { s with fb := (s.drawing x y n.val).1 } flagReg (collisionFlag (s.drawing x y n.val).2)) := rfl

theorem State.reg_setReg_flagReg (s : State) (b : Byte) : (s.setReg flagReg b).reg 15 = b := by
  simp [State.reg_setReg, flagReg]

end Sys2Proof.Machine

namespace Sys2Proof.Proofs

open Sys2Proof Sys2Proof.Machine

/-- Settles O45 (R131, R134): VF is the flag of the drawing's collision, which `Drawn.collision_iff_exists_wentUnset` says is
true exactly when some pixel went unset; with height 0 no pixel does (D35). -/
theorem drawFlagsAnyPixelThatWentUnset : Obligations.DrawFlagsAnyPixelThatWentUnset := by
  unfold Obligations.DrawFlagsAnyPixelThatWentUnset
  intro s x y n
  have hcollision := (s.drawing_drawn x y n).collision_iff_exists_wentUnset
  refine ⟨_, exec_draw s x y n, ?wentUnset, ?allKept⟩
  all_goals rw [State.reg_setReg_flagReg, State.setReg_fb]
  case wentUnset =>
    intro hunset
    have hc : (s.drawing x y n.val).2 = true := hcollision.mpr hunset
    rw [hc]
    rfl
  case allKept =>
    intro hkept
    have hc : (s.drawing x y n.val).2 = false := by
      refine Bool.eq_false_iff.mpr fun hset => ?_
      obtain ⟨px, py, hwas, hnow⟩ := hcollision.mp hset
      exact absurd (hkept px py hwas) (by simp [hnow])
    rw [hc]
    rfl

end Sys2Proof.Proofs

/-! The obligation about faults (60_exceptions.md R155). -/

namespace Sys2Proof.Machine

theorem Memory.write_mod (m : Memory) (a : Nat) (x : Byte) : m.write (a % 4096) x = m.write a x := by
  simp [Memory.write]

theorem State.writeByte_mod (s : State) (a : Nat) (x : Byte) : s.writeByte (a % 4096) x = s.writeByte a x :=
  congrArg (fun m => { s with mem := m }) (Memory.write_mod s.mem a x)

/-- Every instruction but RETURN and CALL completes without touching the status (R155): its meaning is a next state built from
the shared operations, none of which writes the status port. The cases are grouped by the operation that does the writing. -/
theorem exec_keeps_status_of_not_ret_call {i : Instr} (s : State) (hret : i ≠ .ret) (hcall : ∀ nnn, i ≠ .call nnn) :
    ∃ t, exec i s = .next t ∧ t.status = s.status := by
  cases i with
  | ret => exact absurd rfl hret
  | call nnn => exact absurd rfl (hcall nnn)
  | setImm x _ | addImm x _ | orReg x _ | andReg x _ | xorReg x _ | random x _ | getDelayTimer x =>
    exact ⟨_, rfl, s.setReg_status x _⟩
  | addReg x _ | subReg x _ | shr x _ | shl x _ => exact ⟨_, rfl, s.setRegThenFlag_status x _ _⟩
  | skipEqImm _ _ | skipNeqImm _ _ | skipEqReg _ _ | skipIfKey _ | skipIfNotKey _ => exact ⟨_, rfl, s.skipIf_status _⟩
  | setIndex _ | addToIndex _ | loadFontSprite _ => exact ⟨_, rfl, s.setIndex_status _⟩
  | jump nnn => exact ⟨_, rfl, s.setPc_status nnn⟩
  | setDelayTimer x => exact ⟨_, rfl, s.setTimer_status (s.reg x)⟩
  | loadRegisters x => exact ⟨_, exec_loadRegisters x s, s.loadRegs_status s.indexed (x.val + 1)⟩
  | storeBcd _ => exact ⟨_, rfl, by simp only [State.writeByte_status]⟩
  | clear => exact ⟨_, rfl, rfl⟩
  | draw x y n => exact ⟨_, exec_draw s x y n, State.setReg_status _ flagReg _⟩

end Sys2Proof.Machine

namespace Sys2Proof.Proofs

open Sys2Proof Sys2Proof.Machine

/-- Settles O7 (R155): reads and writes take their address modulo 4096 by the laws of memory, and
`exec_keeps_status_of_not_ret_call` is the clause about the other instructions. -/
theorem onlyReturnAndCallCanFault : Obligations.OnlyReturnAndCallCanFault := by
  unfold Obligations.OnlyReturnAndCallCanFault
  refine ⟨?addresses, ?others⟩
  case addresses =>
    intro s k x
    exact ⟨(s.readByte_mod _).symm, (s.writeByte_mod _ x).symm⟩
  case others =>
    intro i s hret hcall
    exact exec_keeps_status_of_not_ret_call s hret hcall

end Sys2Proof.Proofs

/-! The obligation about the first fetch after Reset (70_reset_and_hazards.md R181). -/

namespace Sys2Proof.Machine

@[simp] theorem State.resetOp_pc (s : State) : s.resetOp.pc = 0x200#12 := rfl

/-- Fetch at the entry point reads the bytes at 0x200 and 0x201 (R33, R72). -/
theorem State.fetchWord_of_pc_entry {s : State} (hpc : s.pc = 0x200#12) :
    s.fetchWord = wordOfBytes (s.readByte 0x200) (s.readByte 0x201) := by
  rw [State.fetchWord, hpc]
  rfl

/-- LoadProgram succeeds exactly on an image that fits, and then writes it from 0x200 up into memory alone (R154, R183). -/
theorem State.loadProgram_eq_ok_iff {s t : State} {bytes : List Byte} :
    s.loadProgram bytes = (.ok, t) ↔ bytes.length ≤ 3584 ∧ t = { s with mem := s.mem.writeBytes 0x200 bytes } := by
  unfold State.loadProgram
  by_cases hlong : Config.programMaxLen < bytes.length
  case pos =>
    have hnot : ¬ bytes.length ≤ 3584 := Nat.not_le.mpr hlong
    simp [hlong, hnot]
  case neg =>
    have hfits : bytes.length ≤ 3584 := Nat.le_of_not_lt hlong
    simp [hlong, hfits, eq_comm]

/-- After a successful load, the byte `k` of the image is at 0x200 + k (R183). -/
theorem State.readByte_of_loadProgram_ok {s t : State} {bytes : List Byte} (hload : s.loadProgram bytes = (.ok, t))
    {k : Nat} (hk : k < bytes.length) : t.readByte (0x200 + k) = bytes.getD k 0 := by
  obtain ⟨hfits, rfl⟩ := State.loadProgram_eq_ok_iff.mp hload
  have hread := Memory.read_writeBytes bytes s.mem 0x200 (0x200 + k) (by omega) (by omega)
  rwa [if_pos (by omega), Nat.add_sub_cancel_left] at hread

theorem State.pc_of_loadProgram_ok {s t : State} {bytes : List Byte} (hload : s.loadProgram bytes = (.ok, t)) :
    t.pc = s.pc := by
  obtain ⟨-, rfl⟩ := State.loadProgram_eq_ok_iff.mp hload
  rfl

end Sys2Proof.Machine

namespace Sys2Proof.Proofs

open Sys2Proof Sys2Proof.Machine

/-- Settles O24 (R181): Reset puts pc at the entry point and a load leaves it there, so that the fetch reads the bytes at 0x200
and 0x201, which after the load are the image's first two. -/
theorem firstFetchAfterResetIsAt0x200 : Obligations.FirstFetchAfterResetIsAt0x200 := by
  unfold Obligations.FirstFetchAfterResetIsAt0x200
  intro s
  refine ⟨State.fetchWord_of_pc_entry s.resetOp_pc, ?afterLoad⟩
  case afterLoad =>
    intro b₀ b₁ rest t hload
    have hpc : t.pc = 0x200#12 := (State.pc_of_loadProgram_ok hload).trans s.resetOp_pc
    have h₀ : t.readByte 0x200 = b₀ := State.readByte_of_loadProgram_ok hload (k := 0) (by simp)
    have h₁ : t.readByte 0x201 = b₁ := State.readByte_of_loadProgram_ok hload (k := 1) (by simp)
    refine ⟨hpc, ?_⟩
    rw [State.fetchWord_of_pc_entry hpc, h₀, h₁]

end Sys2Proof.Proofs

/-! The obligations about encoding (30_encoding.md), from the laws of `Sys2Proof/Laws/Decode.lean`. -/

namespace Sys2Proof

/-! ### Masks and fields (R51, R54) -/

section Masks

variable (w : Word)

/-- The mask F000 keeps `op` alone. -/
theorem and_F000 : w &&& 0xF000#16 = formNNN (opField w) 0 := by
  calc w &&& 0xF000#16 = formNNN (opField w) (nnnField w) &&& formNNN (BitVec.allOnes 4) 0 := by
        rw [word_eq_formNNN]; rfl
    _ = (opField w &&& BitVec.allOnes 4) ++ (nnnField w &&& 0) := BitVec.and_append
    _ = formNNN (opField w) 0 := congrArg₂ formNNN BitVec.and_allOnes BitVec.and_zero

/-- The mask F0FF keeps `op` and `nn`. -/
theorem and_F0FF : w &&& 0xF0FF#16 = formXNN (opField w) 0 (nnField w) := by
  calc w &&& 0xF0FF#16
      = formXNN (opField w) (xField w) (nnField w) &&& formXNN (BitVec.allOnes 4) 0 (BitVec.allOnes 8) := by
        rw [word_eq_formXNN]; rfl
    _ = (opField w &&& BitVec.allOnes 4) ++ (nibble (xField w) &&& 0#4) ++ (nnField w &&& BitVec.allOnes 8) :=
        BitVec.and_append.trans (congrArg (· ++ _) BitVec.and_append)
    _ = opField w ++ 0#4 ++ nnField w := by rw [BitVec.and_allOnes, BitVec.and_zero, BitVec.and_allOnes]

/-- The mask F00F keeps `op` and `n`. -/
theorem and_F00F : w &&& 0xF00F#16 = nibbles (opField w) 0 0 (nField w) := by
  calc w &&& 0xF00F#16
      = nibbles (opField w) (nibble (xField w)) (nibble (yField w)) (nField w) &&&
          nibbles (BitVec.allOnes 4) 0 0 (BitVec.allOnes 4) := by
        rw [word_eq_nibbles]; rfl
    _ = (opField w &&& BitVec.allOnes 4) ++ (nibble (xField w) &&& 0#4) ++ (nibble (yField w) &&& 0#4) ++
          (nField w &&& BitVec.allOnes 4) :=
        BitVec.and_append.trans (congrArg (· ++ _) (BitVec.and_append.trans (congrArg (· ++ _) BitVec.and_append)))
    _ = opField w ++ 0#4 ++ 0#4 ++ nField w := by simp only [BitVec.and_allOnes, BitVec.and_zero]

variable {w}

theorem opField_of_and_F000 {op : BitVec 4} (h : w &&& 0xF000#16 = formNNN op 0) : opField w = op := by
  rw [← opField_formNNN op 0, ← h, and_F000, opField_formNNN]

theorem fields_of_and_F0FF {op : BitVec 4} {nn : Byte} (h : w &&& 0xF0FF#16 = formXNN op 0 nn) :
    opField w = op ∧ nnField w = nn := by
  rw [and_F0FF] at h
  exact ⟨by simpa using congrArg opField h, by simpa using congrArg nnField h⟩

theorem fields_of_and_F00F {op n : BitVec 4} (h : w &&& 0xF00F#16 = nibbles op 0 0 n) : opField w = op ∧ nField w = n := by
  rw [and_F00F] at h
  exact ⟨by simpa using congrArg opField h, by simpa using congrArg nField h⟩

/-! A word from the fields that its format fixes and those that it leaves free. -/

theorem formNNN_of_op {op : BitVec 4} (hop : opField w = op) : formNNN op (nnnField w) = w := by
  rw [← hop, word_eq_formNNN]

theorem formXNN_of_op {op : BitVec 4} (hop : opField w = op) : formXNN op (xField w) (nnField w) = w := by
  rw [← hop, word_eq_formXNN]

theorem formXNN_of_op_nn {op : BitVec 4} {nn : Byte} (h : opField w = op ∧ nnField w = nn) :
    formXNN op (xField w) nn = w := by
  rw [← h.1, ← h.2, word_eq_formXNN]

theorem nibbles_of_op {op : BitVec 4} (hop : opField w = op) :
    nibbles op (nibble (xField w)) (nibble (yField w)) (nField w) = w := by
  rw [← hop, word_eq_nibbles]

theorem nibbles_of_op_n {op n : BitVec 4} (h : opField w = op ∧ nField w = n) :
    nibbles op (nibble (xField w)) (nibble (yField w)) n = w := by
  rw [← h.1, ← h.2, word_eq_nibbles]

end Masks

/-! ### The decoder and the encoder -/

/-- The decoder gives back every encoded instruction (R55): the encoder's word has the fields its form was made of. -/
theorem decode_encode (i : Instr) : decode (encode i) = .instr i := by
  cases i with
  | clear | ret => rfl
  | draw x y n =>
    have hn : (nibble n).toFin = n := rfl
    simp [encode, decode, hn]
  | jump _ | call _ | setIndex _ | skipEqImm _ _ | skipNeqImm _ _ | setImm _ _ | addImm _ _ | random _ _
  | skipEqReg _ _ | orReg _ _ | andReg _ _ | xorReg _ _ | addReg _ _ | subReg _ _ | shr _ _ | shl _ _ | skipIfKey _
  | skipIfNotKey _ | getDelayTimer _ | setDelayTimer _ | addToIndex _ | loadFontSprite _ | storeBcd _ | loadRegisters _ =>
    simp [encode, decode]

/-- The word of an instruction is selected by the instruction's own row (R54). -/
theorem encode_and_mask (i : Instr) : encode i &&& (rowOf i).mask = (rowOf i).value := by
  cases i with
  | clear | ret => rfl
  | jump _ | call _ | setIndex _ => exact (and_F000 _).trans (by rw [encode, opField_formNNN]; rfl)
  | skipEqImm _ _ | skipNeqImm _ _ | setImm _ _ | addImm _ _ | random _ _ =>
    exact (and_F000 _).trans (by rw [encode, opField_formXNN]; rfl)
  | draw _ _ _ => exact (and_F000 _).trans (by rw [encode, opField_nibbles]; rfl)
  | skipEqReg _ _ | orReg _ _ | andReg _ _ | xorReg _ _ | addReg _ _ | subReg _ _ | shr _ _ | shl _ _ =>
    exact (and_F00F _).trans (by rw [encode, opField_nibbles, nField_nibbles]; rfl)
  | skipIfKey _ | skipIfNotKey _ | getDelayTimer _ | setDelayTimer _ | addToIndex _ | loadFontSprite _ | storeBcd _
  | loadRegisters _ =>
    exact (and_F0FF _).trans (by rw [encode, opField_formXNN, nnField_formXNN]; rfl)

/-- A row selects only the encodings of its own instruction, with the operands that the word's fields give (R51, R54). -/
theorem exists_encode_eq_of_and_mask {w : Word} {j : Instr} (h : w &&& (rowOf j).mask = (rowOf j).value) :
    ∃ i, encode i = w ∧ rowOf i = rowOf j := by
  cases j with
  | clear => exact ⟨.clear, h.symm.trans BitVec.and_allOnes, rfl⟩
  | ret => exact ⟨.ret, h.symm.trans BitVec.and_allOnes, rfl⟩
  | jump _ => exact ⟨.jump _, formNNN_of_op (opField_of_and_F000 h), rfl⟩
  | call _ => exact ⟨.call _, formNNN_of_op (opField_of_and_F000 h), rfl⟩
  | setIndex _ => exact ⟨.setIndex _, formNNN_of_op (opField_of_and_F000 h), rfl⟩
  | skipEqImm _ _ => exact ⟨.skipEqImm _ _, formXNN_of_op (opField_of_and_F000 h), rfl⟩
  | skipNeqImm _ _ => exact ⟨.skipNeqImm _ _, formXNN_of_op (opField_of_and_F000 h), rfl⟩
  | setImm _ _ => exact ⟨.setImm _ _, formXNN_of_op (opField_of_and_F000 h), rfl⟩
  | addImm _ _ => exact ⟨.addImm _ _, formXNN_of_op (opField_of_and_F000 h), rfl⟩
  | random _ _ => exact ⟨.random _ _, formXNN_of_op (opField_of_and_F000 h), rfl⟩
  | draw _ _ _ => exact ⟨.draw _ _ (nField w).toFin, nibbles_of_op (opField_of_and_F000 h), rfl⟩
  | skipEqReg _ _ => exact ⟨.skipEqReg _ _, nibbles_of_op_n (fields_of_and_F00F h), rfl⟩
  | orReg _ _ => exact ⟨.orReg _ _, nibbles_of_op_n (fields_of_and_F00F h), rfl⟩
  | andReg _ _ => exact ⟨.andReg _ _, nibbles_of_op_n (fields_of_and_F00F h), rfl⟩
  | xorReg _ _ => exact ⟨.xorReg _ _, nibbles_of_op_n (fields_of_and_F00F h), rfl⟩
  | addReg _ _ => exact ⟨.addReg _ _, nibbles_of_op_n (fields_of_and_F00F h), rfl⟩
  | subReg _ _ => exact ⟨.subReg _ _, nibbles_of_op_n (fields_of_and_F00F h), rfl⟩
  | shr _ _ => exact ⟨.shr _ _, nibbles_of_op_n (fields_of_and_F00F h), rfl⟩
  | shl _ _ => exact ⟨.shl _ _, nibbles_of_op_n (fields_of_and_F00F h), rfl⟩
  | skipIfKey _ => exact ⟨.skipIfKey _, formXNN_of_op_nn (fields_of_and_F0FF h), rfl⟩
  | skipIfNotKey _ => exact ⟨.skipIfNotKey _, formXNN_of_op_nn (fields_of_and_F0FF h), rfl⟩
  | getDelayTimer _ => exact ⟨.getDelayTimer _, formXNN_of_op_nn (fields_of_and_F0FF h), rfl⟩
  | setDelayTimer _ => exact ⟨.setDelayTimer _, formXNN_of_op_nn (fields_of_and_F0FF h), rfl⟩
  | addToIndex _ => exact ⟨.addToIndex _, formXNN_of_op_nn (fields_of_and_F0FF h), rfl⟩
  | loadFontSprite _ => exact ⟨.loadFontSprite _, formXNN_of_op_nn (fields_of_and_F0FF h), rfl⟩
  | storeBcd _ => exact ⟨.storeBcd _, formXNN_of_op_nn (fields_of_and_F0FF h), rfl⟩
  | loadRegisters _ => exact ⟨.loadRegisters _, formXNN_of_op_nn (fields_of_and_F0FF h), rfl⟩

/-- R56's list of the unrecognized words, by their fields. -/
def UnrecognizedFields (w : Word) : Prop :=
  (opField w = 0x0#4 ∧ w ≠ 0x00E0#16 ∧ w ≠ 0x00EE#16) ∨
  (opField w = 0x5#4 ∧ nField w ≠ 0x0#4) ∨
  (opField w = 0x8#4 ∧ nField w ∉ [0x1#4, 0x2#4, 0x3#4, 0x4#4, 0x5#4, 0x6#4, 0xE#4]) ∨
  opField w = 0x9#4 ∨ opField w = 0xB#4 ∨
  (opField w = 0xE#4 ∧ nnField w ∉ [0x9E#8, 0xA1#8]) ∨
  (opField w = 0xF#4 ∧ nnField w ∉ [0x07#8, 0x15#8, 0x1E#8, 0x29#8, 0x33#8, 0x65#8])

/-- The two values of `op` that no pattern of R54 has, 0 apart. -/
theorem eq_9_or_eq_B_of_not_mem : ∀ op : BitVec 4,
    op ∉ [0x0#4, 0x1#4, 0x2#4, 0x3#4, 0x4#4, 0x5#4, 0x6#4, 0x7#4, 0x8#4, 0xA#4, 0xC#4, 0xD#4, 0xE#4, 0xF#4] →
      op = 0x9#4 ∨ op = 0xB#4 := by
  decide

/-- What the decoder answers (R55): an instruction that the word encodes, or the word itself as unrecognized, and the latter
for the words of R56's list only. -/
theorem decode_cases (w : Word) :
    (∃ i, decode w = .instr i ∧ encode i = w) ∨ (decode w = .unrecognized w ∧ UnrecognizedFields w) := by
  unfold decode
  split
  case h_1 hop =>
    split_ifs with hclear hret
    · exact .inl ⟨_, rfl, hclear.symm⟩
    · exact .inl ⟨_, rfl, hret.symm⟩
    · exact .inr ⟨rfl, .inl ⟨hop, hclear, hret⟩⟩
  case h_2 hop | h_3 hop | h_10 hop => exact .inl ⟨_, rfl, formNNN_of_op hop⟩
  case h_4 hop | h_5 hop | h_7 hop | h_8 hop | h_11 hop => exact .inl ⟨_, rfl, formXNN_of_op hop⟩
  case h_6 hop =>
    split_ifs with hn
    · exact .inl ⟨_, rfl, nibbles_of_op_n ⟨hop, hn⟩⟩
    · exact .inr ⟨rfl, .inr (.inl ⟨hop, hn⟩)⟩
  case h_9 hop =>
    split
    case h_8 h1 h2 h3 h4 h5 h6 hE =>
      refine .inr ⟨rfl, .inr (.inr (.inl ⟨hop, ?_⟩))⟩
      simp only [List.mem_cons, List.not_mem_nil, or_false, not_or]
      exact ⟨h1, h2, h3, h4, h5, h6, hE⟩
    all_goals exact .inl ⟨_, rfl, nibbles_of_op_n ⟨hop, ‹_›⟩⟩
  case h_12 hop => exact .inl ⟨_, rfl, nibbles_of_op hop⟩
  case h_13 hop =>
    split
    case h_3 h9E hA1 =>
      refine .inr ⟨rfl, .inr (.inr (.inr (.inr (.inr (.inl ⟨hop, ?_⟩)))))⟩
      simp only [List.mem_cons, List.not_mem_nil, or_false, not_or]
      exact ⟨h9E, hA1⟩
    all_goals exact .inl ⟨_, rfl, formXNN_of_op_nn ⟨hop, ‹_›⟩⟩
  case h_14 hop =>
    split
    case h_7 h07 h15 h1E h29 h33 h65 =>
      refine .inr ⟨rfl, .inr (.inr (.inr (.inr (.inr (.inr ⟨hop, ?_⟩)))))⟩
      simp only [List.mem_cons, List.not_mem_nil, or_false, not_or]
      exact ⟨h07, h15, h1E, h29, h33, h65⟩
    all_goals exact .inl ⟨_, rfl, formXNN_of_op_nn ⟨hop, ‹_›⟩⟩
  case h_15 h0 h1 h2 h3 h4 h5 h6 h7 h8 hA hC hD hE hF =>
    have hop : opField w = 0x9#4 ∨ opField w = 0xB#4 := by
      refine eq_9_or_eq_B_of_not_mem _ ?_
      simp only [List.mem_cons, List.not_mem_nil, or_false, not_or]
      exact ⟨h0, h1, h2, h3, h4, h5, h6, h7, h8, hA, hC, hD, hE, hF⟩
    exact .inr ⟨rfl, .inr (.inr (.inr (hop.elim .inl fun hB => .inr (.inl hB))))⟩

/-- No encoding is in R56's list. -/
theorem not_unrecognizedFields_encode (i : Instr) : ¬ UnrecognizedFields (encode i) := by
  cases i with
  | clear | ret =>
    unfold UnrecognizedFields
    decide
  | jump _ | call _ | setIndex _ | skipEqImm _ _ | skipNeqImm _ _ | setImm _ _ | addImm _ _ | random _ _
  | skipEqReg _ _ | orReg _ _ | andReg _ _ | xorReg _ _ | addReg _ _ | subReg _ _ | shr _ _ | shl _ _ | draw _ _ _
  | skipIfKey _ | skipIfNotKey _ | getDelayTimer _ | setDelayTimer _ | addToIndex _ | loadFontSprite _ | storeBcd _
  | loadRegisters _ =>
    simp [UnrecognizedFields, encode]

theorem encode_of_decode_eq_instr {w : Word} {i : Instr} (h : decode w = .instr i) : encode i = w := by
  rcases decode_cases w with ⟨j, hj, henc⟩ | ⟨hu, -⟩
  · cases hj.symm.trans h
    exact henc
  · cases hu.symm.trans h

theorem decode_eq_instr_iff (w : Word) : (∃ i, decode w = .instr i) ↔ ¬ UnrecognizedFields w := by
  constructor
  · rintro ⟨i, hi⟩
    rw [← encode_of_decode_eq_instr hi]
    exact not_unrecognizedFields_encode i
  · intro hnot
    rcases decode_cases w with ⟨i, hi, -⟩ | ⟨-, hu⟩
    · exact ⟨i, hi⟩
    · exact absurd hu hnot

/-! The fields as numbers. -/

theorem toNat_opField (w : Word) : (opField w).toNat = w.toNat / 4096 := by
  have hw := w.isLt
  rw [opField, BitVec.extractLsb'_toNat, Nat.shiftRight_eq_div_pow]
  omega

theorem toNat_nField (w : Word) : (nField w).toNat = w.toNat % 16 := BitVec.extractLsb'_toNat 0 4 w

theorem toNat_nnField (w : Word) : (nnField w).toNat = w.toNat % 256 := BitVec.extractLsb'_toNat 0 8 w

/-- The low nibbles that no pattern of group 8 has, as numbers. -/
theorem toNat_mem_iff_not_mem : ∀ n : BitVec 4,
    n.toNat ∈ [0x0, 0x7, 0x8, 0x9, 0xA, 0xB, 0xC, 0xD, 0xF] ↔ n ∉ [0x1#4, 0x2#4, 0x3#4, 0x4#4, 0x5#4, 0x6#4, 0xE#4] := by
  decide

/-- R56's list by fields is the list by the word's number. -/
theorem unrecognizedFields_iff (w : Word) :
    UnrecognizedFields w ↔
      (w.toNat / 4096 = 0x0 ∧ w ≠ 0x00E0#16 ∧ w ≠ 0x00EE#16) ∨
      (w.toNat / 4096 = 0x5 ∧ w.toNat % 16 ≠ 0x0) ∨
      (w.toNat / 4096 = 0x8 ∧ w.toNat % 16 ∈ [0x0, 0x7, 0x8, 0x9, 0xA, 0xB, 0xC, 0xD, 0xF]) ∨
      w.toNat / 4096 = 0x9 ∨ w.toNat / 4096 = 0xB ∨
      (w.toNat / 4096 = 0xE ∧ w.toNat % 256 ∉ [0x9E, 0xA1]) ∨
      (w.toNat / 4096 = 0xF ∧ w.toNat % 256 ∉ [0x07, 0x15, 0x1E, 0x29, 0x33, 0x65]) := by
  rw [← toNat_opField, ← toNat_nField, ← toNat_nnField, toNat_mem_iff_not_mem]
  simp [UnrecognizedFields, ← BitVec.toNat_inj]

/-! The table's rows are exactly the instructions' rows (R54). -/

theorem exists_eq_rowOf_of_mem_opcodeTable {r : OpRow} (h : r ∈ opcodeTable) : ∃ j, r = rowOf j := by
  revert r
  simp [opcodeTable]

theorem rowOf_mem_opcodeTable (i : Instr) : rowOf i ∈ opcodeTable := by
  cases i <;> simp [opcodeTable, rowOf]

/-- Of the rows, a word that decodes to an instruction is selected by the instruction's own alone. -/
theorem and_mask_eq_iff_of_decode {w : Word} {i : Instr} (h : decode w = .instr i) (j : Instr) :
    w &&& (rowOf j).mask = (rowOf j).value ↔ rowOf j = rowOf i := by
  have hw := encode_of_decode_eq_instr h
  constructor
  · intro hsel
    obtain ⟨k, hk, hrow⟩ := exists_encode_eq_of_and_mask hsel
    have hik : k = i := Decoded.instr.inj ((decode_encode k).symm.trans (hk ▸ h))
    rw [← hrow, hik]
  · intro hrow
    rw [hrow, ← hw]
    exact encode_and_mask i

end Sys2Proof

namespace Sys2Proof.Proofs

open Sys2Proof

/-- Settles O1 (R54, R55): `decode_encode` holds of every instruction, whether well-formed or not. -/
theorem decodeOfEncodeIsTheInstruction : Obligations.DecodeOfEncodeIsTheInstruction := by
  unfold Obligations.DecodeOfEncodeIsTheInstruction
  intro i _
  exact decode_encode i

/-- Settles O2 (R54, R55): by the cases of the decoder, each of which rebuilds the word from its fields. -/
theorem encodeOfDecodeIsTheWord : Obligations.EncodeOfDecodeIsTheWord := by
  unfold Obligations.EncodeOfDecodeIsTheWord
  intro w i
  exact encode_of_decode_eq_instr

/-- Settles O3 (R54): a row selects exactly the encodings of its own instruction, which decode to it. -/
theorem decodeAgreesWithTheOpcodeTable : Obligations.DecodeAgreesWithTheOpcodeTable := by
  unfold Obligations.DecodeAgreesWithTheOpcodeTable
  intro w
  rcases decode_cases w with ⟨i, hi, -⟩ | ⟨hu, -⟩
  · refine .inl ⟨i, hi, rowOf_mem_opcodeTable i, fun r hr => ?_⟩
    obtain ⟨j, rfl⟩ := exists_eq_rowOf_of_mem_opcodeTable hr
    exact and_mask_eq_iff_of_decode hi j
  · refine .inr ⟨hu, fun r hr hsel => ?_⟩
    obtain ⟨j, rfl⟩ := exists_eq_rowOf_of_mem_opcodeTable hr
    obtain ⟨k, rfl, -⟩ := exists_encode_eq_of_and_mask hsel
    cases hu.symm.trans (decode_encode k)

/-- Settles O4 (R56): the recognized words are those outside the list by fields, which is the list of the statement. -/
theorem unrecognizedWordsAreTheListedOnes : Obligations.UnrecognizedWordsAreTheListedOnes := by
  unfold Obligations.UnrecognizedWordsAreTheListedOnes
  intro w
  rw [decode_eq_instr_iff, unrecognizedFields_iff]

/-- Settles O5 (R55): the decoder, run on each of the twelve words. -/
theorem wordsWrittenOutDecodeAsTheSpecSays : Obligations.WordsWrittenOutDecodeAsTheSpecSays := by
  unfold Obligations.WordsWrittenOutDecodeAsTheSpecSays
  decide

end Sys2Proof.Proofs

/-! What executing one instruction can do (40_step_cycle.md R75, R78): one inversion law for `exec`, and the frame of each piece
of state as its consequence. -/

namespace Sys2Proof

/-- SET_IMM, ADD_IMM, OR, AND, XOR, RANDOM and GET_DELAY_TIMER with the destination V[r]. -/
def Instr.WritesReg (i : Instr) (r : Reg) : Prop :=
  (∃ nn, i = .setImm r nn) ∨ (∃ nn, i = .addImm r nn) ∨ (∃ y, i = .orReg r y) ∨ (∃ y, i = .andReg r y) ∨
    (∃ y, i = .xorReg r y) ∨ (∃ nn, i = .random r nn) ∨ i = .getDelayTimer r

/-- ADD_REG, SUB_REG, SHR and SHL with the destination V[r] (R111). -/
def Instr.WritesRegAndFlag (i : Instr) (r : Reg) : Prop :=
  (∃ y, i = .addReg r y) ∨ (∃ y, i = .subReg r y) ∨ (∃ y, i = .shr r y) ∨ ∃ y, i = .shl r y

/-- SET_INDEX, ADD_TO_INDEX and LOAD_FONT_SPRITE. -/
def Instr.WritesIndex (i : Instr) : Prop :=
  (∃ nnn, i = .setIndex nnn) ∨ (∃ x, i = .addToIndex x) ∨ ∃ x, i = .loadFontSprite x

/-- The five skips (R96). -/
def Instr.Skips (i : Instr) : Prop :=
  (∃ x nn, i = .skipEqImm x nn) ∨ (∃ x nn, i = .skipNeqImm x nn) ∨ (∃ x y, i = .skipEqReg x y) ∨
    (∃ x, i = .skipIfKey x) ∨ ∃ x, i = .skipIfNotKey x

/-- The five flag setters, written out (R11). -/
theorem Instr.exists_writesRegAndFlag_or_draw_iff {i : Instr} :
    ((∃ x, i.WritesRegAndFlag x) ∨ ∃ x y n, i = .draw x y n) ↔
      (∃ x y, i = .addReg x y) ∨ (∃ x y, i = .subReg x y) ∨ (∃ x y, i = .shr x y) ∨ (∃ x y, i = .shl x y) ∨
        ∃ x y n, i = .draw x y n := by
  simp only [Instr.WritesRegAndFlag, exists_or, or_assoc]

end Sys2Proof

namespace Sys2Proof.Machine

/-! ### RETURN and CALL (R90, R92, R152, R153) -/

theorem exec_ret_of_depth_succ {s : State} {k : Fin 16} (hk : s.sp.val = k.val + 1) :
    exec .ret s = .next { s with pc := s.stack[k], sp := ⟨k.val, by omega⟩ } :=
  exec_ret_of_pop (State.pop_of_depth_succ hk)

theorem exec_ret_of_empty {s : State} (h : s.sp.val = 0) : exec .ret s = .next (s.raise .stackUnderflow) := by
  have hpop : s.pop = none := by simp [State.pop, h]
  simp only [exec, execRet, hpop]

theorem exec_call_of_room {s : State} {k : Fin 16} (hk : s.sp.val = k.val) (nnn : Addr) :
    exec (.call nnn) s =
      .next { s with pc := nnn, stack := s.stack.set k.val s.pc, sp := ⟨k.val + 1, by omega⟩ } := by
  have hpush : s.push s.pc =
      some { s with stack := s.stack.set k.val s.pc, sp := ⟨k.val + 1, by omega⟩ } := by
    simp [State.push, hk]
  simp only [exec, execCall, hpush, State.setPc]

theorem exec_call_of_full {s : State} (h : s.sp.val = 16) (nnn : Addr) :
    exec (.call nnn) s = .next (s.raise .stackOverflow) := by
  have hpush : s.push s.pc = none := by simp [State.push, h]
  simp only [exec, execCall, hpush]

/-- The stack is empty, or its depth is one more than an entry's index (R14). -/
theorem State.depth_zero_or_succ (s : State) : s.sp.val = 0 ∨ ∃ k : Fin 16, s.sp.val = k.val + 1 := by
  rcases Nat.eq_zero_or_pos s.sp.val with h | h
  · exact .inl h
  · exact .inr ⟨⟨s.sp.val - 1, by omega⟩, (Nat.succ_pred_eq_of_pos h).symm⟩

/-- The stack has room for the entry at its depth, or is full (R14). -/
theorem State.depth_room_or_full (s : State) : (∃ k : Fin 16, s.sp.val = k.val) ∨ s.sp.val = 16 := by
  rcases Nat.lt_or_ge s.sp.val 16 with h | h
  · exact .inl ⟨⟨s.sp.val, h⟩, rfl⟩
  · exact .inr (by omega)

/-! ### All that an instruction can do -/

/-- The next states of an instruction, by the shared operation that makes them. -/
inductive Effect (s : State) : Instr → State → Prop
  | reg {i : Instr} {x : Reg} (b : Byte) (hi : i.WritesReg x) : Effect s i (s.setReg x b)
  | regThenFlag {i : Instr} {x : Reg} (b : Byte) (c : Bool) (hi : i.WritesRegAndFlag x) :
      Effect s i (s.setRegThenFlag x b (flagByte c))
  | index {i : Instr} (a : Word) (hi : i.WritesIndex) : Effect s i (s.setIndex a)
  | skip {i : Instr} (c : Bool) (hi : i.Skips) : Effect s i (s.skipIf c)
  | jump (nnn : Addr) : Effect s (.jump nnn) (s.setPc nnn)
  | retPop {k : Fin 16} (hk : s.sp.val = k.val + 1) :
      Effect s .ret { s with pc := s.stack[k], sp := ⟨k.val, by omega⟩ }
  | retUnderflow (h : s.sp.val = 0) : Effect s .ret (s.raise .stackUnderflow)
  | callPush (nnn : Addr) {k : Fin 16} (hk : s.sp.val = k.val) :
      Effect s (.call nnn) { s with pc := nnn, stack := s.stack.set k.val s.pc, sp := ⟨k.val + 1, by omega⟩ }
  | callOverflow (nnn : Addr) (h : s.sp.val = 16) : Effect s (.call nnn) (s.raise .stackOverflow)
  | timer (x : Reg) : Effect s (.setDelayTimer x) (s.setTimer (s.reg x))
  | loadRegisters (x : Reg) : Effect s (.loadRegisters x) (s.loadRegs s.indexed (x.val + 1))
  | storeBcd (x : Reg) (b₀ b₁ b₂ : Byte) :
      Effect s (.storeBcd x) (((s.writeByte (s.indexed 0) b₀).writeByte (s.indexed 1) b₁).writeByte (s.indexed 2) b₂)
  | clear : Effect s .clear { s with fb := clearedFramebuffer }
  | draw (x y : Reg) (n : Fin 16) :
      Effect s (.draw x y n)
        (State.setReg { s with fb := (s.drawing x y n.val).1 } flagReg (flagByte (s.drawing x y n.val).2))

/-- Every instruction completes in every state (R78), with one of the effects listed for it. -/
theorem exec_effect (i : Instr) (s : State) : ∃ t, exec i s = .next t ∧ Effect s i t := by
  cases i with
  | setImm _ _ | addImm _ _ | orReg _ _ | andReg _ _ | xorReg _ _ | random _ _ | getDelayTimer _ =>
    exact ⟨_, rfl, .reg _ (by simp [Instr.WritesReg])⟩
  | addReg _ _ | subReg _ _ | shr _ _ | shl _ _ => exact ⟨_, rfl, .regThenFlag _ _ (by simp [Instr.WritesRegAndFlag])⟩
  | setIndex _ | addToIndex _ | loadFontSprite _ => exact ⟨_, rfl, .index _ (by simp [Instr.WritesIndex])⟩
  | skipEqImm _ _ | skipNeqImm _ _ | skipEqReg _ _ | skipIfKey _ | skipIfNotKey _ =>
    exact ⟨_, rfl, .skip _ (by simp [Instr.Skips])⟩
  | jump nnn => exact ⟨_, rfl, .jump nnn⟩
  | ret =>
    rcases s.depth_zero_or_succ with h | ⟨k, hk⟩
    · exact ⟨_, exec_ret_of_empty h, .retUnderflow h⟩
    · exact ⟨_, exec_ret_of_depth_succ hk, .retPop hk⟩
  | call nnn =>
    rcases s.depth_room_or_full with ⟨k, hk⟩ | h
    · exact ⟨_, exec_call_of_room hk nnn, .callPush nnn hk⟩
    · exact ⟨_, exec_call_of_full h nnn, .callOverflow nnn h⟩
  | setDelayTimer x => exact ⟨_, rfl, .timer x⟩
  | loadRegisters x => exact ⟨_, exec_loadRegisters x s, .loadRegisters x⟩
  | storeBcd x => exact ⟨_, rfl, .storeBcd x _ _ _⟩
  | clear => exact ⟨_, rfl, .clear⟩
  | draw x y n => exact ⟨_, exec_draw s x y n, .draw x y n⟩

theorem effect_of_exec {i : Instr} {s t : State} (h : exec i s = .next t) : Effect s i t := by
  obtain ⟨u, hu, heff⟩ := exec_effect i s
  cases hu.symm.trans h
  exact heff

/-! ### The frame of each piece of state (R22) -/

section Frames

variable {i : Instr} {s t : State}

theorem Effect.keeps_inputs (h : Effect s i t) :
    t.keys = s.keys ∧ t.now = s.now ∧ t.rnd = s.rnd ∧ t.draws = s.draws ∧ t.word = s.word := by
  cases h <;> simp

/-- The registers that an instruction changes: its destination, and VF where it sets the flag. -/
theorem Effect.reg_cases (h : Effect s i t) {r : Reg} (hr : t.reg r ≠ s.reg r) :
    i.WritesReg r ∨ i.WritesRegAndFlag r ∨ (∃ x, i = .loadRegisters x ∧ r.val ≤ x.val) ∨
      (r = 15 ∧ ((∃ x, i.WritesRegAndFlag x) ∨ ∃ x y n, i = .draw x y n)) := by
  cases h with
  | reg b hi =>
    rw [State.reg_setReg] at hr
    split at hr
    case isTrue hx => exact .inl (hx ▸ hi)
    case isFalse => exact absurd rfl hr
  | regThenFlag b c hi =>
    rw [State.reg_setRegThenFlag] at hr
    split_ifs at hr with h15 hx
    · exact .inr (.inr (.inr ⟨h15, .inl ⟨_, hi⟩⟩))
    · exact .inr (.inl (hx ▸ hi))
    · exact absurd rfl hr
  | loadRegisters x =>
    rw [State.reg_loadRegs_indexed] at hr
    split at hr
    case isTrue hx => exact .inr (.inr (.inl ⟨x, rfl, hx⟩))
    case isFalse => exact absurd rfl hr
  | draw x y n =>
    rw [State.reg_setReg] at hr
    split at hr
    case isTrue h15 => exact .inr (.inr (.inr ⟨h15, .inr ⟨x, y, n, rfl⟩⟩))
    case isFalse => exact absurd rfl hr
  | skip c hi => exact absurd (congrArg (·[r]) (s.skipIf_v c)) hr
  | _ => exact absurd rfl hr

theorem Effect.mem_eq (h : Effect s i t) (hi : ∀ x, i ≠ .storeBcd x) : t.mem = s.mem := by
  cases h with
  | storeBcd x _ _ _ => exact absurd rfl (hi x)
  | _ => simp

theorem Effect.i_cases (h : Effect s i t) (hne : t.i ≠ s.i) : i.WritesIndex := by
  cases h with
  | index _ hi => exact hi
  | _ => exact absurd (by simp) hne

theorem Effect.pc_cases (h : Effect s i t) (hne : t.pc ≠ s.pc) :
    i = .ret ∨ (∃ nnn, i = .jump nnn) ∨ (∃ nnn, i = .call nnn) ∨ i.Skips := by
  cases h with
  | retPop _ | retUnderflow _ => exact .inl rfl
  | jump nnn => exact .inr (.inl ⟨nnn, rfl⟩)
  | callPush nnn _ | callOverflow nnn _ => exact .inr (.inr (.inl ⟨nnn, rfl⟩))
  | skip _ hi => exact .inr (.inr (.inr hi))
  | _ => exact absurd (by simp) hne

theorem Effect.stack_cases (h : Effect s i t) (hne : t.stack ≠ s.stack) : ∃ nnn, i = .call nnn := by
  cases h with
  | callPush nnn _ => exact ⟨nnn, rfl⟩
  | _ => exact absurd (by simp) hne

theorem Effect.sp_cases (h : Effect s i t) (hne : t.sp ≠ s.sp) : i = .ret ∨ ∃ nnn, i = .call nnn := by
  cases h with
  | retPop _ => exact .inl rfl
  | callPush nnn _ => exact .inr ⟨nnn, rfl⟩
  | _ => exact absurd (by simp) hne

/-- The timer changes only when SET_DELAY_TIMER records a value and the step's time (R143). -/
theorem Effect.timer_cases (h : Effect s i t) :
    (t.dtValue = s.dtValue ∧ t.dtStamp = s.dtStamp) ∨ ((∃ x, i = .setDelayTimer x) ∧ t.dtStamp = s.now) := by
  cases h with
  | timer x => exact .inr ⟨⟨x, rfl⟩, rfl⟩
  | _ => exact .inl (by simp)

theorem Effect.fb_cases (h : Effect s i t) (hne : t.fb ≠ s.fb) : i = .clear ∨ ∃ x y n, i = .draw x y n := by
  cases h with
  | clear => exact .inl rfl
  | draw x y n => exact .inr ⟨x, y, n, rfl⟩
  | _ => exact absurd (by simp) hne

/-- The status changes only in a RETURN on an empty stack and in a CALL on a full one (R152, R153). -/
theorem Effect.status_cases (h : Effect s i t) :
    t.status = s.status ∨ (i = .ret ∧ s.sp.val = 0 ∧ t.status = .stackUnderflow) ∨
      ∃ nnn, i = .call nnn ∧ s.sp.val = 16 ∧ t.status = .stackOverflow := by
  cases h with
  | retUnderflow hempty => exact .inr (.inl ⟨rfl, hempty, rfl⟩)
  | callOverflow nnn hfull => exact .inr (.inr ⟨nnn, rfl, hfull, rfl⟩)
  | _ => exact .inl (by simp)

theorem Effect.mem_wf (h : Effect s i t) (hwf : s.mem.wf = true) : t.mem.wf = true := by
  cases h with
  | storeBcd x _ _ _ =>
    simp only [State.writeByte_mem]
    exact Memory.wf_write _ _ (Memory.wf_write _ _ (Memory.wf_write _ _ hwf))
  | _ => simpa using hwf

end Frames

/-! ### The flag (R11, R111) -/

theorem exec_of_writesRegAndFlag {i : Instr} {x : Reg} (hi : i.WritesRegAndFlag x) (s : State) :
    ∃ b c, exec i s = .next (s.setRegThenFlag x b (flagByte c)) := by
  rcases hi with ⟨y, rfl⟩ | ⟨y, rfl⟩ | ⟨y, rfl⟩ | ⟨y, rfl⟩ <;> exact ⟨_, _, rfl⟩

theorem flagByte_zero_or_one (c : Bool) : flagByte c = 0 ∨ flagByte c = 1 := by
  rcases flagByte_cases c with ⟨-, h⟩ | ⟨-, h⟩
  · exact .inr h
  · exact .inl h

/-- The five flag setters leave 0 or 1 in VF (R11). -/
theorem flag_zero_or_one_of_exec {i : Instr} {s t : State} (h : exec i s = .next t)
    (hi : (∃ x, i.WritesRegAndFlag x) ∨ ∃ x y n, i = .draw x y n) : t.reg 15 = 0 ∨ t.reg 15 = 1 := by
  rcases hi with ⟨x, hx⟩ | ⟨x, y, n, rfl⟩
  · obtain ⟨b, c, hexec⟩ := exec_of_writesRegAndFlag hx s
    cases hexec.symm.trans h
    rw [State.reg_setRegThenFlag, if_pos rfl]
    exact flagByte_zero_or_one c
  · cases (exec_draw s x y n).symm.trans h
    rw [State.reg_setReg_flagReg]
    exact flagByte_zero_or_one _

end Sys2Proof.Machine

namespace Sys2Proof.Proofs

open Sys2Proof Sys2Proof.Machine

/-- Settles O51 (R22): one frame law of `Effect` for each piece of state. -/
theorem eachStateIsWrittenOnlyByItsInstructions : Obligations.EachStateIsWrittenOnlyByItsInstructions := by
  unfold Obligations.EachStateIsWrittenOnlyByItsInstructions
  intro i s t hexec
  have h := effect_of_exec hexec
  refine ⟨fun r hr => ?registers, fun hi a => ?memory, h.i_cases, h.pc_cases, h.stack_cases, h.sp_cases,
    fun hne => ?timer, h.fb_cases, fun hne => ?status, h.keeps_inputs⟩
  case registers =>
    have hcases := h.reg_cases hr
    simp only [Instr.exists_writesRegAndFlag_or_draw_iff] at hcases
    rcases hcases with (h | h | h | h | h | h | h) | (h | h | h | h) | h | h <;> simp only [h, true_or, or_true, and_self]
  case memory => simp only [State.readByte, h.mem_eq hi]
  case timer =>
    rcases h.timer_cases with ⟨hvalue, hstamp⟩ | ⟨hset, -⟩
    · exact absurd hne (by simp [hvalue, hstamp])
    · exact hset
  case status =>
    rcases h.status_cases with hkept | ⟨hret, -⟩ | ⟨nnn, hcall, -⟩
    · exact absurd hkept hne
    · exact .inl hret
    · exact .inr ⟨nnn, hcall⟩

/-- Settles O52 (R11, R111): the flag setters leave a flag's byte, and V[15] changes only as `Effect.reg_cases` says; a
LOAD_REGISTERS that reaches it is the one with x = 15. -/
theorem onlyFiveInstructionsSetTheFlag : Obligations.OnlyFiveInstructionsSetTheFlag := by
  unfold Obligations.OnlyFiveInstructionsSetTheFlag
  intro i s t hexec
  refine ⟨fun hi => flag_zero_or_one_of_exec hexec ?setter, fun hne => ?changed⟩
  case setter =>
    exact Instr.exists_writesRegAndFlag_or_draw_iff.mpr hi
  case changed =>
    have hlast : (∃ x, i = .loadRegisters x ∧ (15 : Reg).val ≤ x.val) → i = .loadRegisters 15 := by
      rintro ⟨x, rfl, hx⟩
      rw [show x = 15 from Fin.ext (by omega)]
    rcases (effect_of_exec hexec).reg_cases hne with hreg | hflag | hload | ⟨-, hflag⟩
    · rcases hreg with h | h | h | h | h | h | h <;> simp only [h, true_or, or_true]
    · rcases Instr.exists_writesRegAndFlag_or_draw_iff.mp (.inl ⟨15, hflag⟩) with h | h | h | h | h <;>
        simp only [h, true_or, or_true]
    · simp only [hlast hload, or_true]
    · rcases Instr.exists_writesRegAndFlag_or_draw_iff.mp hflag with h | h | h | h | h <;>
        simp only [h, true_or, or_true]

end Sys2Proof.Proofs

/-! The obligations about memory's canonical form (log entry 8), the bytes that STORE_BCD writes (43_index_memory.md R123)
and fetch (40_step_cycle.md R72). -/

namespace Sys2Proof.Machine

/-! ### The canonical form is determined by the bytes -/

/-- The canonical form lists its addresses in rising order. -/
theorem Memory.pairwise_of_wf {m : Memory} (h : m.wf = true) : m.Pairwise fun c d => c.1 < d.1 := by
  induction m with
  | nil => exact .nil
  | cons c rest ih =>
    obtain ⟨-, -, hbelow, hrest⟩ := (Memory.wf_cons c rest).mp h
    exact .cons hbelow (ih hrest)

theorem Memory.lt_of_mem {m : Memory} (h : m.wf = true) {c : Host.Cell} (hc : c ∈ m) : c.1 < 4096 := by
  induction m with
  | nil => cases hc
  | cons d rest ih =>
    obtain ⟨hrange, -, -, hrest⟩ := (Memory.wf_cons d rest).mp h
    rcases List.mem_cons.mp hc with rfl | hmem
    · exact hrange
    · exact ih hrest hmem

/-- The canonical form lists exactly the bytes that are found other than the reset contents. -/
theorem Memory.mem_iff_lookup {m : Memory} (h : m.wf = true) (a : Nat) (b : Byte) :
    (a, b) ∈ m ↔ m.lookup a = b ∧ b ≠ resetByte a := by
  induction m with
  | nil => simp +contextual [Memory.lookup, eq_comm]
  | cons d rest ih =>
    obtain ⟨k, x⟩ := d
    obtain ⟨-, hx, hbelow, hrest⟩ := (Memory.wf_cons (k, x) rest).mp h
    by_cases hka : k = a
    · subst hka
      have hfresh : (k, b) ∉ rest := fun hmem => lt_irrefl k (hbelow _ hmem)
      have hlookup : Memory.lookup ((k, x) :: rest) k = x := if_pos rfl
      rw [List.mem_cons, hlookup]
      constructor
      · rintro (heq | hmem)
        · cases heq
          exact ⟨rfl, hx⟩
        · exact absurd hmem hfresh
      · rintro ⟨rfl, -⟩
        exact .inl rfl
    · have hlookup : Memory.lookup ((k, x) :: rest) a = Memory.lookup rest a := if_neg hka
      have hne : (a, b) ≠ (k, x) := fun heq => hka (congrArg Prod.fst heq).symm
      rw [List.mem_cons, hlookup, ← ih hrest, or_iff_right hne]

theorem Memory.mem_iff_read {m : Memory} (h : m.wf = true) (a : Nat) (b : Byte) :
    (a, b) ∈ m ↔ a < 4096 ∧ m.read a = b ∧ b ≠ resetByte a := by
  have hread : a < 4096 → m.read a = m.lookup a := fun ha => congrArg m.lookup (Nat.mod_eq_of_lt ha)
  constructor
  · intro hmem
    have ha : a < 4096 := Memory.lt_of_mem h hmem
    exact ⟨ha, by rw [hread ha]; exact (Memory.mem_iff_lookup h a b).mp hmem⟩
  · rintro ⟨ha, hb⟩
    rw [hread ha] at hb
    exact (Memory.mem_iff_lookup h a b).mpr hb

/-- Two canonical memories with the same bytes have the same entries, each in rising order, so they are the same list. -/
theorem Memory.eq_of_read_eq {m₁ m₂ : Memory} (h₁ : m₁.wf = true) (h₂ : m₂.wf = true)
    (hread : ∀ a, m₁.read a = m₂.read a) : m₁ = m₂ := by
  have hmem : ∀ c : Host.Cell, c ∈ m₁ ↔ c ∈ m₂ := by
    rintro ⟨a, b⟩
    rw [Memory.mem_iff_read h₁, Memory.mem_iff_read h₂, hread a]
  have hnodup {m : Memory} (h : m.wf = true) : m.Nodup :=
    (Memory.pairwise_of_wf h).imp fun hlt heq => hlt.ne (congrArg Prod.fst heq)
  have hperm : m₁.Perm m₂ := (List.perm_ext_iff_of_nodup (hnodup h₁) (hnodup h₂)).mpr hmem
  exact hperm.eq_of_pairwise (fun c d _ _ hcd hdc => absurd hcd hdc.asymm)
    (Memory.pairwise_of_wf h₁) (Memory.pairwise_of_wf h₂)

/-! ### STORE_BCD's three bytes -/

/-- STORE_BCD always completes, with the digits of V[x] stored at EA(0), EA(1) and EA(2) (R123, R125). -/
theorem exec_storeBcd (x : Reg) (s : State) :
    exec (.storeBcd x) s =
      .next (((s.writeByte (s.indexed 0) (hundreds (s.reg x))).writeByte (s.indexed 1) (tens (s.reg x))).writeByte
        (s.indexed 2) (ones (s.reg x))) := rfl

theorem State.indexed_eq (s : State) (k : Nat) : s.indexed k = (s.i.toNat + k) % 4096 := rfl

/-- Three bytes stored at EA(0), EA(1) and EA(2), read back: no two of these addresses are the same. -/
theorem State.readByte_of_three_stores (s : State) (b₀ b₁ b₂ : Byte) (a : Nat) :
    (((s.writeByte (s.indexed 0) b₀).writeByte (s.indexed 1) b₁).writeByte (s.indexed 2) b₂).readByte a =
      if (s.i.toNat + 2) % 4096 = a % 4096 then b₂ else if (s.i.toNat + 1) % 4096 = a % 4096 then b₁
      else if s.i.toNat % 4096 = a % 4096 then b₀ else s.readByte a := by
  simp only [State.readByte_writeByte, State.indexed_eq, Nat.mod_mod, Nat.add_zero]

section Digits

variable (v : Byte)

theorem toNat_hundreds : (hundreds v).toNat = v.toNat / 100 := by
  have hv := v.isLt
  exact Nat.mod_eq_of_lt (by omega)

theorem toNat_tens : (tens v).toNat = v.toNat / 10 % 10 := Nat.mod_eq_of_lt (by omega)

theorem toNat_ones : (ones v).toNat = v.toNat % 10 := Nat.mod_eq_of_lt (by omega)

end Digits

/-! ### Fetch (R33, R72, R73) -/

theorem toNat_wordOfBytes (hi lo : Byte) : (wordOfBytes hi lo).toNat = 256 * hi.toNat + lo.toNat := by
  have hlo := lo.isLt
  rw [wordOfBytes, BitVec.toNat_append, ← Nat.shiftLeft_add_eq_or_of_lt hlo, Nat.shiftLeft_eq]
  omega

theorem toNat_add_two (a : Addr) : (a + 2).toNat = (a.toNat + 2) % 4096 := rfl

end Sys2Proof.Machine

namespace Sys2Proof.Proofs

open Sys2Proof Sys2Proof.Machine

/-- Settles O8 (log entry 8): the entries are the bytes that differ from the reset contents, and they stand in order. -/
theorem canonicalMemoryIsDeterminedByItsBytes : Obligations.CanonicalMemoryIsDeterminedByItsBytes := by
  unfold Obligations.CanonicalMemoryIsDeterminedByItsBytes
  intro m₁ m₂ h₁ h₂ hread
  exact Memory.eq_of_read_eq h₁ h₂ hread

/-- Settles O41 (R123, R125): the bytes are those of `State.readByte_of_three_stores`, whose three addresses differ. -/
theorem storeBcdStoresThreeDigits : Obligations.StoreBcdStoresThreeDigits := by
  unfold Obligations.StoreBcdStoresThreeDigits
  intro s x
  refine ⟨_, exec_storeBcd x s, ?hundreds, ?tens, ?ones, ?others, s.indexed_eq, ?frame⟩
  case frame => rfl
  case others =>
    intro a ha hother
    have h₀ := hother 0 (by decide)
    have h₁ := hother 1 (by decide)
    have h₂ := hother 2 (by decide)
    rw [State.readByte_of_three_stores, if_neg (by omega), if_neg (by omega), if_neg (by omega)]
  all_goals rw [State.readByte_of_three_stores, State.indexed_eq]
  case hundreds => rw [if_neg (by omega), if_neg (by omega), if_pos (by omega), toNat_hundreds]
  case tens => rw [if_neg (by omega), if_pos (by omega), toNat_tens]
  case ones => rw [if_pos (by omega), toNat_ones]

/-- Settles O9 (R42, R186): EA(0) and EA(1) are pc and the address after it, where fetch reads. -/
theorem fetchSeesTheBytesJustStored : Obligations.FetchSeesTheBytesJustStored := by
  unfold Obligations.FetchSeesTheBytesJustStored
  intro s x hpc
  refine ⟨_, exec_storeBcd x s, rfl, ?_⟩
  rw [State.indexed_eq] at hpc
  simp only [State.fetchWord, State.readByte_of_three_stores, State.writeByte_pc]
  rw [if_neg (by omega), if_neg (by omega), if_pos (by omega), if_neg (by omega), if_pos (by omega)]

/-- Settles O10 (R33, R72, R73). -/
theorem fetchReadsBigEndianAndAdvancesPc : Obligations.FetchReadsBigEndianAndAdvancesPc := by
  unfold Obligations.FetchReadsBigEndianAndAdvancesPc
  intro s
  refine ⟨?word, toNat_add_two s.pc, ?frame⟩
  case word => rw [State.fetchWord, toNat_wordOfBytes, State.readByte_mod]
  case frame => rfl

end Sys2Proof.Proofs

/-! The obligations about invariants and unobservable state (10_state.md R14, R15; 45_keypad_timer.md R145). -/

namespace Sys2Proof.Machine

/-! ### The invariant -/

/-- The invariant is kept by whatever keeps memory canonical, does not move `now`, and leaves the stamp or sets it to `now`. -/
theorem Effect.inv {i : Instr} {s t : State} (h : Effect s i t) (hs : s.Inv) : t.Inv := by
  obtain ⟨hwf, hstamp⟩ := hs
  obtain ⟨-, hnow, -⟩ := h.keeps_inputs
  refine ⟨h.mem_wf hwf, ?_⟩
  rcases h.timer_cases with ⟨-, hkept⟩ | ⟨-, hset⟩
  · rw [hkept, hnow]
    exact hstamp
  · rw [hset, hnow]

theorem State.Inv.fetch {s : State} (h : s.Inv) : s.fetch.Inv := h

theorem State.Inv.raise {s : State} (h : s.Inv) (f : Status) : (s.raise f).Inv := h

/-- Later inputs keep the invariant. -/
theorem State.Inv.withInputs {s : State} (h : s.Inv) {now : Nat} (hnow : s.now ≤ now) (rnd : Byte) :
    (s.withInputs now rnd).Inv := ⟨h.1, h.2.trans hnow⟩

theorem State.Inv.drawInputs {s : State} (h : s.Inv) : s.drawInputs.Inv := ⟨h.1, h.2.trans (Nat.le_add_right _ _)⟩

/-- All that a cycle can do (R71): it executes the decoded instruction after fetch, or reports the word. -/
theorem cycle_cases {s t : State} (h : cycle s = .next t) :
    (∃ i, decode s.fetchWord = .instr i ∧ exec i s.fetch = .next t) ∨
      (decode s.fetchWord = .unrecognized s.fetchWord ∧ t = s.fetch.raise .unrecognized) := by
  rcases decode_cases s.fetchWord with ⟨i, hi, -⟩ | ⟨hu, -⟩
  · exact .inl ⟨i, hi, (cycle_instr s hi).symm.trans h⟩
  · cases (cycle_unrecognized s hu).symm.trans h
    exact .inr ⟨hu, rfl⟩

theorem State.Inv.cycle {s t : State} (hs : s.Inv) (h : cycle s = .next t) : t.Inv := by
  rcases cycle_cases h with ⟨i, -, hexec⟩ | ⟨-, rfl⟩
  · exact (effect_of_exec hexec).inv hs.fetch
  · exact hs.fetch.raise _

theorem State.Inv.step {s t : State} (hs : s.Inv) (h : step s = .next t) : t.Inv := by
  obtain ⟨u, hu, rfl⟩ := endStep_next h
  exact (hs.cycle hu).drawInputs

theorem State.reset_inv : State.reset.Inv := ⟨State.reset_mem_wf, Nat.zero_le _⟩

theorem State.resetOp_inv (s : State) : s.resetOp.Inv := ⟨State.reset_mem_wf, Nat.zero_le _⟩

theorem State.Inv.loadProgram {s : State} (hs : s.Inv) (bytes : List Byte) : (s.loadProgram bytes).2.Inv := by
  unfold State.loadProgram
  split
  · exact hs
  · exact ⟨Memory.wf_writeBytes bytes _ hs.1, hs.2⟩

/-- A host Step that returns came from a cycle that went on. -/
theorem steppedResult_next {o : Host.Outcome State Fault Refusal} {r : HostResult} {t : State}
    (h : steppedResult o = .next (r, t)) : o = .next t := by
  cases o with
  | next u =>
    cases h
    rfl
  | fault f => cases f
  | refused f => cases h

/-- SetKeyState in its domain (R80). -/
theorem hostOp_setKeyState (k : Fin 16) (pressed : Bool) (s : State) :
    hostOp (.setKeyState k.val pressed) s = .next (.done, s.setKey k pressed) := dif_pos k.isLt

/-- SetKeyState outside its domain (R80, U12). -/
theorem hostOp_setKeyState_of_le {index : Nat} (h : 16 ≤ index) (pressed : Bool) (s : State) :
    hostOp (.setKeyState index pressed) s = .refused (.keyIndexOutOfRange index) := dif_neg (Nat.not_lt.mpr h)

/-! ### Simulation: a relation between states that no step can tell apart -/

/-- What a relation must keep for steps from related states to lead to related states (R71). -/
structure StepSimulation (R : State → State → Prop) : Prop where
  fetchWord {s t : State} : R s t → t.fetchWord = s.fetchWord
  fetch {s t : State} : R s t → R s.fetch t.fetch
  exec {i : Instr} {s t s' : State} : R s t → exec i s = .next s' → ∃ t', exec i t = .next t' ∧ R s' t'
  raise {s t : State} (f : Status) : R s t → R (s.raise f) (t.raise f)
  drawInputs {s t : State} : R s t → R s.drawInputs t.drawInputs

theorem StepSimulation.cycle {R : State → State → Prop} (hR : StepSimulation R) {s t s' : State} (h : R s t)
    (hs : cycle s = .next s') : ∃ t', cycle t = .next t' ∧ R s' t' := by
  have hword := hR.fetchWord h
  rcases cycle_cases hs with ⟨i, hi, hexec⟩ | ⟨hu, rfl⟩
  · obtain ⟨t', ht', hrel⟩ := hR.exec (hR.fetch h) hexec
    exact ⟨t', (cycle_instr t (hword ▸ hi)).trans ht', hrel⟩
  · exact ⟨_, cycle_unrecognized t (hword ▸ hu), hR.raise _ (hR.fetch h)⟩

theorem StepSimulation.step {R : State → State → Prop} (hR : StepSimulation R) {s t s' : State} (h : R s t)
    (hs : step s = .next s') : ∃ t', step t = .next t' ∧ R s' t' := by
  obtain ⟨u, hu, rfl⟩ := endStep_next hs
  obtain ⟨v, hv, hrel⟩ := hR.cycle h hu
  exact ⟨v.drawInputs, congrArg endStep hv, hR.drawInputs hrel⟩

/-! ### The state that RETURN, CALL and the timer instructions alone look at -/

/-- The instructions that read or write the call stack's entries or the timer's stamp. -/
def UsesHidden (i : Instr) : Prop :=
  i = .ret ∨ (∃ nnn, i = .call nnn) ∨ (∃ x, i = .getDelayTimer x) ∨ ∃ x, i = .setDelayTimer x

/-- The state with another call stack content and another time stamp. -/
def State.withHidden (s : State) (st : Vector Addr 16) (d : Nat) : State := { s with stack := st, dtStamp := d }

theorem State.loadRegs_withHidden (s : State) (st : Vector Addr 16) (d : Nat) (addr : Nat → Nat) (n : Nat) :
    (s.withHidden st d).loadRegs addr n = (s.loadRegs addr n).withHidden st d := by
  induction n with
  | zero => rfl
  | succ k ih =>
    rw [State.loadRegs, ih]
    rfl

theorem State.skipIf_withHidden (s : State) (st : Vector Addr 16) (d : Nat) (c : Bool) :
    (s.withHidden st d).skipIf c = (s.skipIf c).withHidden st d := by
  cases c <;> rfl

/-- Every other instruction does the same whatever stands there, and leaves it. -/
theorem exec_withHidden {i : Instr} {s u : State} (hi : ¬ UsesHidden i) (hs : exec i s = .next u) (st : Vector Addr 16)
    (d : Nat) : exec i (s.withHidden st d) = .next (u.withHidden st d) := by
  cases i with
  | ret | call _ | getDelayTimer _ | setDelayTimer _ => exact absurd (by simp [UsesHidden]) hi
  | skipEqImm _ _ | skipNeqImm _ _ | skipEqReg _ _ | skipIfKey _ | skipIfNotKey _ =>
    cases hs
    exact congrArg _ (s.skipIf_withHidden st d _)
  | loadRegisters x =>
    cases hs
    exact congrArg _ (s.loadRegs_withHidden st d _ _)
  | setImm _ _ | addImm _ _ | orReg _ _ | andReg _ _ | xorReg _ _ | random _ _ | addReg _ _ | subReg _ _ | shr _ _
  | shl _ _ | setIndex _ | addToIndex _ | loadFontSprite _ | jump _ | storeBcd _ | clear | draw _ _ _ =>
    cases hs
    rfl

theorem Effect.keeps_hidden {i : Instr} {s t : State} (h : Effect s i t) (hi : ¬ UsesHidden i) :
    t.stack = s.stack ∧ t.sp = s.sp ∧ t.dtValue = s.dtValue ∧ t.dtStamp = s.dtStamp := by
  cases h with
  | retPop _ | retUnderflow _ | callPush _ _ | callOverflow _ _ | timer _ => exact absurd (by simp [UsesHidden]) hi
  | _ => simp

/-! ### Stack entries at and above the depth (R14) -/

theorem sameButDeadStack_iff {s t : State} :
    SameButDeadStack s t ↔
      ∃ st, t = s.withHidden st s.dtStamp ∧ ∀ k : Fin 16, k.val < s.sp.val → st[k] = s.stack[k] := by
  constructor
  · rintro ⟨heq, hlive⟩
    exact ⟨t.stack, heq, hlive⟩
  · rintro ⟨st, rfl, hlive⟩
    exact ⟨rfl, hlive⟩

/-- RETURN reads an entry below the depth, and lowers the depth. -/
theorem exec_ret_sameButDeadStack {s t s' : State} (h : SameButDeadStack s t) (hs : exec .ret s = .next s') :
    ∃ t', exec .ret t = .next t' ∧ SameButDeadStack s' t' := by
  obtain ⟨st, rfl, hlive⟩ := sameButDeadStack_iff.mp h
  rcases s.depth_zero_or_succ with hempty | ⟨k, hk⟩
  · cases (exec_ret_of_empty hempty).symm.trans hs
    exact ⟨_, exec_ret_of_empty (s := s.withHidden st s.dtStamp) hempty, rfl, hlive⟩
  · cases (exec_ret_of_depth_succ hk).symm.trans hs
    have htop : st[k] = s.stack[k] := hlive k (by omega)
    refine ⟨_, exec_ret_of_depth_succ (s := s.withHidden st s.dtStamp) hk, ?_, fun j hj => hlive j ?_⟩
    · simp only [State.withHidden, htop]
    · have hjk : j.val < k.val := hj
      omega

/-- CALL writes the entry at the depth, which it makes a live one. -/
theorem exec_call_sameButDeadStack {s t s' : State} {nnn : Addr} (h : SameButDeadStack s t)
    (hs : exec (.call nnn) s = .next s') : ∃ t', exec (.call nnn) t = .next t' ∧ SameButDeadStack s' t' := by
  obtain ⟨st, rfl, hlive⟩ := sameButDeadStack_iff.mp h
  rcases s.depth_room_or_full with ⟨k, hk⟩ | hfull
  · cases (exec_call_of_room hk nnn).symm.trans hs
    refine ⟨_, exec_call_of_room (s := s.withHidden st s.dtStamp) hk nnn, rfl, fun j hj => ?_⟩
    have hjk : j.val < k.val + 1 := hj
    show (st.set k.val s.pc)[j.val] = (s.stack.set k.val s.pc)[j.val]
    by_cases heq : k.val = j.val
    · simp only [Vector.getElem_set, heq, if_true]
    · simp only [Vector.getElem_set, heq, if_false]
      exact hlive j (by omega)
  · cases (exec_call_of_full hfull nnn).symm.trans hs
    exact ⟨_, exec_call_of_full (s := s.withHidden st s.dtStamp) hfull nnn, rfl, hlive⟩

theorem exec_sameButDeadStack_of_not_usesHidden {i : Instr} {s t s' : State} (h : SameButDeadStack s t)
    (hs : exec i s = .next s') (hi : ¬ UsesHidden i) : ∃ t', exec i t = .next t' ∧ SameButDeadStack s' t' := by
  obtain ⟨st, rfl, hlive⟩ := sameButDeadStack_iff.mp h
  obtain ⟨hstack, hsp, -, hstamp⟩ := (effect_of_exec hs).keeps_hidden hi
  refine ⟨_, exec_withHidden hi hs st s.dtStamp, sameButDeadStack_iff.mpr ⟨st, by rw [hstamp], ?_⟩⟩
  rw [hstack, hsp]
  exact hlive

theorem exec_sameButDeadStack {i : Instr} {s t s' : State} (h : SameButDeadStack s t) (hs : exec i s = .next s') :
    ∃ t', exec i t = .next t' ∧ SameButDeadStack s' t' := by
  cases i with
  | ret => exact exec_ret_sameButDeadStack h hs
  | call nnn => exact exec_call_sameButDeadStack h hs
  | getDelayTimer x | setDelayTimer x =>
    obtain ⟨st, rfl, hlive⟩ := sameButDeadStack_iff.mp h
    cases hs
    exact ⟨_, rfl, rfl, hlive⟩
  | _ => exact exec_sameButDeadStack_of_not_usesHidden h hs (by simp [UsesHidden])

/-- An operation that neither looks at the call stack nor changes it keeps the relation. -/
theorem sameButDeadStack_map {f : State → State}
    (hf : ∀ s st, f (s.withHidden st s.dtStamp) = (f s).withHidden st (f s).dtStamp)
    (hkept : ∀ s, (f s).stack = s.stack ∧ (f s).sp = s.sp) {s t : State} (h : SameButDeadStack s t) :
    SameButDeadStack (f s) (f t) := by
  obtain ⟨st, rfl, hlive⟩ := sameButDeadStack_iff.mp h
  obtain ⟨hstack, hsp⟩ := hkept s
  refine sameButDeadStack_iff.mpr ⟨st, hf s st, ?_⟩
  rw [hstack, hsp]
  exact hlive

theorem stepSimulation_sameButDeadStack : StepSimulation SameButDeadStack where
  fetchWord h := by
    obtain ⟨st, rfl, -⟩ := sameButDeadStack_iff.mp h
    rfl
  fetch := sameButDeadStack_map (f := State.fetch) (fun _ _ => rfl) fun _ => ⟨rfl, rfl⟩
  exec := exec_sameButDeadStack
  raise f := sameButDeadStack_map (f := fun s => s.raise f) (fun _ _ => rfl) fun _ => ⟨rfl, rfl⟩
  drawInputs := sameButDeadStack_map (f := State.drawInputs) (fun _ _ => rfl) fun _ => ⟨rfl, rfl⟩

/-! ### The stamp of a timer whose value is 0 (R15, D29) -/

/-- Two such states are the same state, or the timer's value is 0 and any stamp stands in the second. -/
theorem sameButDeadStamp_iff {s t : State} :
    SameButDeadStamp s t ↔ t = s ∨ (s.dtValue = 0 ∧ ∃ d, t = s.withHidden s.stack d) := by
  constructor
  · rintro ⟨heq, hzero | hsame⟩
    · exact .inr ⟨hzero, t.dtStamp, heq⟩
    · exact .inl (by rw [heq, hsame])
  · rintro (rfl | ⟨hzero, d, rfl⟩)
    · exact ⟨rfl, .inr rfl⟩
    · exact ⟨rfl, .inl hzero⟩

theorem exec_getDelayTimer (x : Reg) (s : State) : exec (.getDelayTimer x) s = .next (s.setReg x s.timerValue) := rfl

/-- A timer whose value is 0 reads 0 at any time, whatever its stamp. -/
theorem State.timerValue_of_zero {s : State} (h : s.dtValue = 0) : s.timerValue = 0 := by
  apply BitVec.eq_of_toNat_eq
  rw [State.timerValue, timerAt_toNat, h]
  exact Nat.zero_sub _

theorem exec_getDelayTimer_of_zero {s : State} (h : s.dtValue = 0) (x : Reg) :
    exec (.getDelayTimer x) s = .next (s.setReg x 0) := by
  rw [exec_getDelayTimer, State.timerValue_of_zero h]

theorem exec_withDeadStamp_of_not_usesHidden {i : Instr} {s s' : State} (hzero : s.dtValue = 0) (d : Nat)
    (hs : exec i s = .next s') (hi : ¬ UsesHidden i) :
    ∃ t', exec i (s.withHidden s.stack d) = .next t' ∧ SameButDeadStamp s' t' := by
  obtain ⟨hstack, -, hvalue, -⟩ := (effect_of_exec hs).keeps_hidden hi
  exact ⟨_, exec_withHidden hi hs s.stack d, sameButDeadStamp_iff.mpr (.inr ⟨hvalue.trans hzero, d, by rw [hstack]⟩)⟩

theorem exec_withDeadStamp {i : Instr} {s s' : State} (hzero : s.dtValue = 0) (d : Nat) (hs : exec i s = .next s') :
    ∃ t', exec i (s.withHidden s.stack d) = .next t' ∧ SameButDeadStamp s' t' := by
  cases i with
  | ret =>
    rcases s.depth_zero_or_succ with hempty | ⟨k, hk⟩
    · cases (exec_ret_of_empty hempty).symm.trans hs
      exact ⟨_, exec_ret_of_empty (s := s.withHidden s.stack d) hempty, rfl, .inl hzero⟩
    · cases (exec_ret_of_depth_succ hk).symm.trans hs
      exact ⟨_, exec_ret_of_depth_succ (s := s.withHidden s.stack d) hk, rfl, .inl hzero⟩
  | call nnn =>
    rcases s.depth_room_or_full with ⟨k, hk⟩ | hfull
    · cases (exec_call_of_room hk nnn).symm.trans hs
      exact ⟨_, exec_call_of_room (s := s.withHidden s.stack d) hk nnn, rfl, .inl hzero⟩
    · cases (exec_call_of_full hfull nnn).symm.trans hs
      exact ⟨_, exec_call_of_full (s := s.withHidden s.stack d) hfull nnn, rfl, .inl hzero⟩
  | getDelayTimer x =>
    cases (exec_getDelayTimer_of_zero hzero x).symm.trans hs
    exact ⟨_, exec_getDelayTimer_of_zero (s := s.withHidden s.stack d) hzero x, rfl, .inl hzero⟩
  | setDelayTimer x =>
    cases hs
    exact ⟨_, rfl, rfl, .inr rfl⟩
  | _ => exact exec_withDeadStamp_of_not_usesHidden hzero d hs (by simp [UsesHidden])

/-- An operation that neither looks at the timer nor changes it keeps the relation. -/
theorem sameButDeadStamp_map {f : State → State} (hf : ∀ s d, f (s.withHidden s.stack d) = (f s).withHidden (f s).stack d)
    (hkept : ∀ s, (f s).dtValue = s.dtValue) {s t : State} (h : SameButDeadStamp s t) : SameButDeadStamp (f s) (f t) := by
  rcases sameButDeadStamp_iff.mp h with rfl | ⟨hzero, d, rfl⟩
  · exact sameButDeadStamp_iff.mpr (.inl rfl)
  · exact sameButDeadStamp_iff.mpr (.inr ⟨(hkept s).trans hzero, d, hf s d⟩)

theorem stepSimulation_sameButDeadStamp : StepSimulation SameButDeadStamp where
  fetchWord h := by
    rcases sameButDeadStamp_iff.mp h with rfl | ⟨-, d, rfl⟩ <;> rfl
  fetch := sameButDeadStamp_map (f := State.fetch) (fun _ _ => rfl) fun _ => rfl
  exec h hs := by
    rcases sameButDeadStamp_iff.mp h with rfl | ⟨hzero, d, rfl⟩
    · exact ⟨_, hs, rfl, .inr rfl⟩
    · exact exec_withDeadStamp hzero d hs
  raise f := sameButDeadStamp_map (f := fun s => s.raise f) (fun _ _ => rfl) fun _ => rfl
  drawInputs := sameButDeadStamp_map (f := State.drawInputs) (fun _ _ => rfl) fun _ => rfl

end Sys2Proof.Machine

namespace Sys2Proof.Proofs

open Sys2Proof Sys2Proof.Machine

/-- Settles O18 (R143, R145): `Effect.inv` for the instruction, and the drawn time is not below the old one. -/
theorem stepKeepsTheInvariant : Obligations.StepKeepsTheInvariant := by
  unfold Obligations.StepKeepsTheInvariant
  intro s t hs h
  exact hs.step h

/-- Settles O19 (R21). -/
theorem resetMeetsTheInvariant : Obligations.ResetMeetsTheInvariant := State.reset_inv

/-- Settles O20 (R80 to R82, R145, R180, R183): one law of the invariant for each host operation. -/
theorem hostOperationsKeepTheInvariant : Obligations.HostOperationsKeepTheInvariant := by
  unfold Obligations.HostOperationsKeepTheInvariant
  intro op s t r hs htime h
  cases op with
  | reset =>
    cases h
    exact s.resetOp_inv
  | loadProgram bytes =>
    cases h
    exact hs.loadProgram bytes
  | step now rnd => exact (hs.withInputs (htime now rnd rfl) rnd).cycle (steppedResult_next h)
  | readFramebuffer =>
    cases h
    exact hs
  | setKeyState index pressed =>
    by_cases hk : index < 16
    · cases (hostOp_setKeyState ⟨index, hk⟩ pressed s).symm.trans h
      exact hs
    · cases (hostOp_setKeyState_of_le (Nat.le_of_not_lt hk) pressed s).symm.trans h

/-- Settles O21 (R14, D4): the relation is a simulation, in which RETURN reads live entries only. -/
theorem entriesAboveTheDepthAreUnobservable : Obligations.EntriesAboveTheDepthAreUnobservable := by
  unfold Obligations.EntriesAboveTheDepthAreUnobservable
  intro s t s' h hs
  exact stepSimulation_sameButDeadStack.step h hs

/-- Settles O22 (R15, D29): the relation is a simulation, in which a timer of value 0 reads 0 whatever its stamp. -/
theorem stampOfAZeroTimerIsUnobservable : Obligations.StampOfAZeroTimerIsUnobservable := by
  unfold Obligations.StampOfAZeroTimerIsUnobservable
  intro s t s' h hs
  exact stepSimulation_sameButDeadStamp.step h hs

end Sys2Proof.Proofs

/-! The obligations about the step cycle (40_step_cycle.md). -/

namespace Sys2Proof.Machine

/-- Every cycle goes on (R78). -/
theorem exists_cycle_eq_next (s : State) : ∃ t, cycle s = .next t := by
  rcases decode_cases s.fetchWord with ⟨i, hi, -⟩ | ⟨hu, -⟩
  · obtain ⟨t, ht, -⟩ := exec_effect i s.fetch
    exact ⟨t, (cycle_instr s hi).trans ht⟩
  · exact ⟨_, cycle_unrecognized s hu⟩

theorem step_of_cycle {s t : State} (h : cycle s = .next t) : step s = .next t.drawInputs := congrArg endStep h

theorem hostOp_step_of_cycle {s t : State} {now : Nat} {rnd : Byte} (h : cycle (s.withInputs now rnd) = .next t) :
    hostOp (.step now rnd) s = .next (.stepped t.status t.word, t) := congrArg steppedResult h

theorem cycle_inputs {s t : State} (h : cycle s = .next t) : t.now = s.now ∧ t.draws = s.draws := by
  rcases cycle_cases h with ⟨i, -, hexec⟩ | ⟨-, rfl⟩
  · obtain ⟨-, hnow, -, hdraws, -⟩ := (effect_of_exec hexec).keeps_inputs
    exact ⟨hnow, hdraws⟩
  · exact ⟨rfl, rfl⟩

end Sys2Proof.Machine

namespace Sys2Proof.Proofs

open Sys2Proof Sys2Proof.Machine

/-- Settles O11 (R71): the cycle executes the decoded instruction after fetch, and then the inputs are drawn. -/
theorem stepRunsTheDecodedInstruction : Obligations.StepRunsTheDecodedInstruction := by
  unfold Obligations.StepRunsTheDecodedInstruction
  rintro s w f rfl rfl
  refine ⟨fun i hi => ?recognized, fun u hu => ?unrecognized⟩
  case recognized =>
    obtain ⟨t, ht, -⟩ := exec_effect i s.fetch
    exact ⟨t, ht, step_of_cycle ((cycle_instr s hi).trans ht)⟩
  case unrecognized => exact step_of_cycle (cycle_unrecognized s hu)

/-- Settles O12 (R71, R76): as in `step`, with the given inputs; the status after execute is fetch's Ok unless the instruction
is RETURN or CALL at its bound of the stack. -/
theorem hostStepReturnsStatusAndFetchedWord : Obligations.HostStepReturnsStatusAndFetchedWord := by
  unfold Obligations.HostStepReturnsStatusAndFetchedWord
  rintro s now rnd w f rfl rfl
  refine ⟨fun u hu => ?unrecognized, fun i hi => ?recognized⟩
  case unrecognized => exact hostOp_step_of_cycle (cycle_unrecognized (s.withInputs now rnd) hu)
  case recognized =>
    obtain ⟨t, ht, heff⟩ := exec_effect i (s.withInputs now rnd).fetch
    have hcycle : cycle (s.withInputs now rnd) = .next t :=
      (cycle_instr (s.withInputs now rnd) hi).trans ht
    obtain ⟨-, -, -, -, hword⟩ := heff.keeps_inputs
    refine ⟨t, ht, ?_, heff.status_cases⟩
    rw [hostOp_step_of_cycle hcycle, hword]
    rfl

/-- Settles O13 (R78): the decoder answers every word, and every instruction completes in every state. -/
theorem everyStepCompletes : Obligations.EveryStepCompletes := by
  unfold Obligations.EveryStepCompletes
  intro s
  refine ⟨?step, fun now rnd => ?hostStep⟩
  case step =>
    obtain ⟨t, ht⟩ := exists_cycle_eq_next s
    exact ⟨_, step_of_cycle ht⟩
  case hostStep =>
    obtain ⟨t, ht⟩ := exists_cycle_eq_next (s.withInputs now rnd)
    exact ⟨_, _, t, hostOp_step_of_cycle ht⟩

/-- Settles O14 (R151): such a word is unrecognized by `decode_cases`, and the cycle then only fetches and reports. -/
theorem unrecognizedStepOnlyAdvancesPc : Obligations.UnrecognizedStepOnlyAdvancesPc := by
  unfold Obligations.UnrecognizedStepOnlyAdvancesPc
  intro s hnone
  rcases decode_cases s.fetchWord with ⟨i, hi, -⟩ | ⟨hu, -⟩
  · exact absurd hi (hnone i)
  · exact ⟨_, step_of_cycle (cycle_unrecognized s hu), toNat_add_two s.pc, rfl, rfl, rfl⟩

/-- Settles O15 (R76, R161): fetch reads neither output port and writes both. -/
theorem stepIgnoresThePreviousResult : Obligations.StepIgnoresThePreviousResult := by
  unfold Obligations.StepIgnoresThePreviousResult
  intro s status word
  have hfetch : State.fetch { s with status := status, word := word } = s.fetch := rfl
  have hword : State.fetchWord { s with status := status, word := word } = s.fetchWord := rfl
  rw [step, step, cycle, cycle, hfetch, hword]

/-- Settles O16 (R61): the word decodes to the jump it encodes, which sets pc back to where fetch read it. -/
theorem jumpToItselfChangesNothing : Obligations.JumpToItselfChangesNothing := by
  unfold Obligations.JumpToItselfChangesNothing
  intro s hself
  have hdecode : decode s.fetchWord = .instr (.jump s.pc) := by rw [hself, decode_encode]
  have hcycle : cycle s = .next (s.fetch.setPc s.pc) := cycle_instr s hdecode
  exact ⟨_, step_of_cycle hcycle, rfl, rfl⟩

/-- Settles O17 (log entry 1): a cycle leaves `now` and the counter, and the drawing after it adds to both. -/
theorem timeInputNeverDecreases : Obligations.TimeInputNeverDecreases := by
  unfold Obligations.TimeInputNeverDecreases
  intro s t h
  obtain ⟨u, hu, rfl⟩ := endStep_next h
  obtain ⟨hnow, hdraws⟩ := cycle_inputs hu
  rw [State.drawInputs_now, State.drawInputs_draws, hnow, hdraws]
  exact ⟨Nat.le_add_right _ _, rfl⟩

end Sys2Proof.Proofs

/-! The obligations about control transfer (41_control_flow.md) and the key skips (45_keypad_timer.md). -/

namespace Sys2Proof.Machine

/-- A skip as a whole state: pc moves on by 2, or nothing happens (R96). -/
theorem State.skipIf_eq (s : State) (c : Bool) : s.skipIf c = if c = true then { s with pc := s.pc + 2 } else s := by
  cases c <;> rfl

theorem exec_of_skips {i : Instr} (hi : i.Skips) (s : State) : ∃ c, exec i s = .next (s.skipIf c) := by
  rcases hi with ⟨x, nn, rfl⟩ | ⟨x, nn, rfl⟩ | ⟨x, y, rfl⟩ | ⟨x, rfl⟩ | ⟨x, rfl⟩ <;> exact ⟨_, rfl⟩

section Skips

variable (s : State) (x y : Reg) (nn : Byte)

theorem exec_skipEqImm : exec (.skipEqImm x nn) s = .next (s.skipIf (s.reg x == nn)) := rfl

theorem exec_skipNeqImm : exec (.skipNeqImm x nn) s = .next (s.skipIf (s.reg x != nn)) := rfl

theorem exec_skipEqReg : exec (.skipEqReg x y) s = .next (s.skipIf (s.reg x == s.reg y)) := rfl

theorem exec_skipIfKey : exec (.skipIfKey x) s = .next (s.skipIf (s.keyDown (lowNibble (s.reg x)))) := rfl

theorem exec_skipIfNotKey : exec (.skipIfNotKey x) s = .next (s.skipIf (!s.keyDown (lowNibble (s.reg x)))) := rfl

end Skips

/-- The low nibble is the value modulo 16 (R122, R140). -/
theorem val_lowNibble (b : Byte) : (lowNibble b).val = b.toNat % 16 := BitVec.extractLsb'_toNat 0 4 b

theorem exec_jump (nnn : Addr) (s : State) : exec (.jump nnn) s = .next (s.setPc nnn) := rfl

end Sys2Proof.Machine

namespace Sys2Proof.Proofs

open Sys2Proof Sys2Proof.Machine

/-- Settles O28 (R90, R152): the two depths are the two laws of RETURN. -/
theorem returnPopsIntoPcOrReportsUnderflow : Obligations.ReturnPopsIntoPcOrReportsUnderflow := by
  unfold Obligations.ReturnPopsIntoPcOrReportsUnderflow
  intro s
  refine ⟨fun k hk => ?pop, fun hempty => ?underflow⟩
  case pop => exact ⟨_, exec_ret_of_depth_succ hk, rfl, rfl, rfl⟩
  case underflow => exact ⟨_, exec_ret_of_empty hempty, rfl⟩

/-- Settles O29 (R92, R153): the two depths are the two laws of CALL. -/
theorem callPushesPcAndJumpsOrReportsOverflow : Obligations.CallPushesPcAndJumpsOrReportsOverflow := by
  unfold Obligations.CallPushesPcAndJumpsOrReportsOverflow
  intro s nnn
  refine ⟨fun k hk => ?push, fun hfull => ?overflow⟩
  case push =>
    refine ⟨_, exec_call_of_room hk nnn, rfl, rfl, fun j => ?_, rfl⟩
    simp only [Fin.getElem_fin, Vector.getElem_set, Fin.val_inj, eq_comm]
  case overflow => exact ⟨_, exec_call_of_full hfull nnn, rfl⟩

/-- Settles O30 (W2): the depth the CALL left makes the RETURN pop the CALL's own entry, the pc before the jump. -/
theorem returnResumesAfterTheCall : Obligations.ReturnResumesAfterTheCall := by
  unfold Obligations.ReturnResumesAfterTheCall
  intro s t u nnn k hk hcall hsp hentry
  cases (exec_call_of_room hk nnn).symm.trans hcall
  have hdepth : u.sp.val = k.val + 1 := congrArg Fin.val hsp
  have hpushed : u.stack[k] = s.pc := hentry.trans (Vector.getElem_set_self _)
  exact ⟨_, exec_ret_of_depth_succ hdepth, hpushed, Fin.ext hk.symm, rfl⟩

/-- Settles O31 (R91). -/
theorem jumpSetsPc : Obligations.JumpSetsPc := by
  unfold Obligations.JumpSetsPc
  intro s nnn
  exact ⟨_, exec_jump nnn s, rfl⟩

/-- Settles O32 (R96): all five end in `State.skipIf`. -/
theorem skipsAddTwoToPcOrDoNothing : Obligations.SkipsAddTwoToPcOrDoNothing := by
  unfold Obligations.SkipsAddTwoToPcOrDoNothing
  intro s i hi
  obtain ⟨c, hexec⟩ := exec_of_skips hi s
  refine ⟨_, hexec, ?_⟩
  cases c with
  | true => exact ⟨rfl, .inl (toNat_add_two s.pc)⟩
  | false => exact ⟨rfl, .inr rfl⟩

/-- Settles O33 (R93 to R96). -/
theorem registerSkipsTestTheirConditions : Obligations.RegisterSkipsTestTheirConditions := by
  unfold Obligations.RegisterSkipsTestTheirConditions
  intro s x y nn
  refine ⟨_, _, _, exec_skipEqImm s x nn, exec_skipNeqImm s x nn, exec_skipEqReg s x y, ?eqImm, ?neqImm, ?eqReg⟩
  case eqImm => simp only [State.skipIf_eq, beq_iff_eq]
  case neqImm => simp only [State.skipIf_eq, bne_iff_ne, ne_eq, ite_not]
  case eqReg => simp only [State.skipIf_eq, beq_iff_eq]

/-- Settles O47 (R140, R141): `k` is the low nibble of V[x], which both skips test. -/
theorem keySkipsTestTheKeyNamedByX : Obligations.KeySkipsTestTheKeyNamedByX := by
  unfold Obligations.KeySkipsTestTheKeyNamedByX
  intro s x k hk
  have hkey : lowNibble (s.reg x) = k := Fin.ext ((val_lowNibble _).trans hk)
  refine ⟨_, _, exec_skipIfKey s x, exec_skipIfNotKey s x, ?down, ?up⟩
  all_goals rw [hkey, State.skipIf_eq]
  case down => rfl
  case up =>
    rw [State.keyDown]
    cases s.keys[k] <;> rfl

end Sys2Proof.Proofs

/-! The obligations about the registers (42_alu.md) and the index register (43_index_memory.md). -/

namespace Sys2Proof.Machine

/-! ### Registers after a write (R10, R111) -/

section Registers

variable (s : State) {x r : Reg} (b f : Byte)

theorem State.reg_setReg_same (x : Reg) : (s.setReg x b).reg x = b := by rw [State.reg_setReg, if_pos rfl]

theorem State.reg_setReg_of_ne (h : r ≠ x) : (s.setReg x b).reg r = s.reg r := by rw [State.reg_setReg, if_neg h]

theorem State.reg_setRegThenFlag_flag (x : Reg) : (s.setRegThenFlag x b f).reg 15 = f := by
  rw [State.reg_setRegThenFlag, if_pos rfl]

theorem State.reg_setRegThenFlag_same (h : x ≠ 15) : (s.setRegThenFlag x b f).reg x = b := by
  rw [State.reg_setRegThenFlag, if_neg h, if_pos rfl]

theorem State.reg_setRegThenFlag_of_ne (hx : r ≠ x) (h15 : r ≠ 15) : (s.setRegThenFlag x b f).reg r = s.reg r := by
  rw [State.reg_setRegThenFlag, if_neg h15, if_neg hx]

end Registers

/-! ### What each instruction leaves -/

section Equations

variable (s : State) (x y : Reg) (nn : Byte)

theorem exec_setImm : exec (.setImm x nn) s = .next (s.setReg x nn) := rfl

theorem exec_addImm : exec (.addImm x nn) s = .next (s.setReg x (s.reg x + nn)) := rfl

theorem exec_orReg : exec (.orReg x y) s = .next (s.setReg x (s.reg x ||| s.reg y)) := rfl

theorem exec_andReg : exec (.andReg x y) s = .next (s.setReg x (s.reg x &&& s.reg y)) := rfl

theorem exec_xorReg : exec (.xorReg x y) s = .next (s.setReg x (s.reg x ^^^ s.reg y)) := rfl

theorem exec_addReg : exec (.addReg x y) s =
    .next (s.setRegThenFlag x (s.reg x + s.reg y) (carryFlag (s.reg x) (s.reg y))) := rfl

theorem exec_subReg : exec (.subReg x y) s =
    .next (s.setRegThenFlag x (s.reg x - s.reg y) (noBorrowFlag (s.reg x) (s.reg y))) := rfl

theorem exec_shr : exec (.shr x y) s = .next (s.setRegThenFlag x (s.reg x >>> 1) (shiftedOutRight (s.reg x))) := rfl

theorem exec_shl : exec (.shl x y) s = .next (s.setRegThenFlag x (s.reg x <<< 1) (shiftedOutLeft (s.reg x))) := rfl

theorem exec_random : exec (.random x nn) s = .next (s.setReg x (s.rnd &&& nn)) := rfl

theorem exec_setIndex (nnn : Addr) : exec (.setIndex nnn) s = .next (s.setIndex (zextAddr nnn)) := rfl

theorem exec_addToIndex : exec (.addToIndex x) s = .next (s.setIndex (s.i + zextByte (s.reg x))) := rfl

theorem exec_loadFontSprite : exec (.loadFontSprite x) s = .next (s.setIndex (glyphAddr (lowNibble (s.reg x)))) := rfl

end Equations

/-! ### Flags and index values as numbers -/

section Numbers

variable (a b : Byte)

theorem toNat_flagByte_decide (p : Prop) [Decidable p] : (flagByte (decide p)).toNat = if p then 1 else 0 := by
  by_cases h : p <;> simp [flagByte, h]

theorem toNat_carryFlag : (carryFlag a b).toNat = if 255 < a.toNat + b.toNat then 1 else 0 := toNat_flagByte_decide _

theorem toNat_noBorrowFlag : (noBorrowFlag a b).toNat = if b.toNat ≤ a.toNat then 1 else 0 := toNat_flagByte_decide _

theorem toNat_shiftedOutRight : (shiftedOutRight a).toNat = a.toNat % 2 := by
  rw [shiftedOutRight, BitVec.getLsbD, Nat.testBit_eq_decide_div_mod_eq, toNat_flagByte_decide]
  split <;> omega

theorem toNat_shiftedOutLeft : (shiftedOutLeft a).toNat = a.toNat / 128 := by
  have ha := a.isLt
  rw [shiftedOutLeft, BitVec.getLsbD, Nat.testBit_eq_decide_div_mod_eq, toNat_flagByte_decide]
  split <;> omega

theorem toNat_zextAddr (nnn : Addr) : (zextAddr nnn).toNat = nnn.toNat := BitVec.toNat_setWidth_of_le (by decide)

theorem toNat_zextByte : (zextByte b).toNat = b.toNat := BitVec.toNat_setWidth_of_le (by decide)

theorem toNat_glyphAddr (digit : Fin 16) : (glyphAddr digit).toNat = 5 * digit.val := by
  have hsum : Config.fontBase + Config.glyphBytes * digit.val = 5 * digit.val := Nat.zero_add _
  rw [glyphAddr, BitVec.toNat_ofNat, hsum]
  omega

end Numbers

end Sys2Proof.Machine

namespace Sys2Proof.Proofs

open Sys2Proof Sys2Proof.Machine

/-- Settles O34 (R100, R101). -/
theorem immediatesAreLoadedAndAddedWithoutFlag : Obligations.ImmediatesAreLoadedAndAddedWithoutFlag := by
  unfold Obligations.ImmediatesAreLoadedAndAddedWithoutFlag
  intro s x nn
  refine ⟨⟨_, exec_setImm s x nn, fun r => s.reg_setReg x r nn, s.setReg_eq x nn⟩, _, exec_addImm s x nn, fun r => ?sum,
    s.setReg_eq x _⟩
  case sum => rw [State.reg_setReg, apply_ite BitVec.toNat, BitVec.toNat_add]

/-- Settles O35 (R102 to R104). -/
theorem logicActsBitwiseWithoutFlag : Obligations.LogicActsBitwiseWithoutFlag := by
  unfold Obligations.LogicActsBitwiseWithoutFlag
  intro s x y
  refine ⟨_, _, _, exec_orReg s x y, exec_andReg s x y, exec_xorReg s x y, fun k hk => ?bits, fun r hr => ?others,
    s.setReg_eq x _, s.setReg_eq x _, s.setReg_eq x _⟩
  case bits =>
    simp only [State.reg_setReg_same]
    exact ⟨BitVec.getLsbD_or, BitVec.getLsbD_and, BitVec.getLsbD_xor⟩
  case others => exact ⟨s.reg_setReg_of_ne _ hr, s.reg_setReg_of_ne _ hr, s.reg_setReg_of_ne _ hr⟩

/-- Settles O36 (R105, R111). -/
theorem addRegSumsThenSetsCarry : Obligations.AddRegSumsThenSetsCarry := by
  unfold Obligations.AddRegSumsThenSetsCarry
  intro s x y
  refine ⟨_, exec_addReg s x y, ?carry, fun hx => ?sum, fun r hr h15 => s.reg_setRegThenFlag_of_ne _ _ hr h15,
    s.setRegThenFlag_eq x _ _⟩
  case carry => rw [State.reg_setRegThenFlag_flag, toNat_carryFlag]
  case sum => rw [State.reg_setRegThenFlag_same _ _ _ hx, BitVec.toNat_add]

/-- Settles O37 (R106, R111). -/
theorem subRegSubtractsThenSetsNoBorrow : Obligations.SubRegSubtractsThenSetsNoBorrow := by
  unfold Obligations.SubRegSubtractsThenSetsNoBorrow
  intro s x y
  refine ⟨_, exec_subReg s x y, ?noBorrow, fun hx => ?difference,
    fun r hr h15 => s.reg_setRegThenFlag_of_ne _ _ hr h15, s.setRegThenFlag_eq x _ _⟩
  case noBorrow => rw [State.reg_setRegThenFlag_flag, toNat_noBorrowFlag]
  case difference =>
    have hy := (s.reg y).isLt
    rw [State.reg_setRegThenFlag_same _ _ _ hx, BitVec.toNat_sub]
    omega

/-- Settles O38 (R107, R108, R111). -/
theorem shiftsMoveOneBitIntoTheFlag : Obligations.ShiftsMoveOneBitIntoTheFlag := by
  unfold Obligations.ShiftsMoveOneBitIntoTheFlag
  intro s x y
  refine ⟨⟨_, exec_shr s x y, ?bit0, fun hx => ?half, fun r hr h15 => s.reg_setRegThenFlag_of_ne _ _ hr h15,
    s.setRegThenFlag_eq x _ _⟩, _, exec_shl s x y, ?bit7, fun hx => ?double,
    fun r hr h15 => s.reg_setRegThenFlag_of_ne _ _ hr h15, s.setRegThenFlag_eq x _ _⟩
  case bit0 => rw [State.reg_setRegThenFlag_flag, toNat_shiftedOutRight]
  case half => rw [State.reg_setRegThenFlag_same _ _ _ hx, BitVec.toNat_ushiftRight, Nat.shiftRight_one]
  case bit7 => rw [State.reg_setRegThenFlag_flag, toNat_shiftedOutLeft]
  case double =>
    rw [State.reg_setRegThenFlag_same _ _ _ hx, BitVec.toNat_shiftLeft, Nat.shiftLeft_eq, Nat.mul_comm]

/-- Settles O39 (R109): the state's random input is the byte given. -/
theorem randomMasksTheStepsRandomByte : Obligations.RandomMasksTheStepsRandomByte := by
  unfold Obligations.RandomMasksTheStepsRandomByte
  intro s x nn rnd
  refine ⟨_, exec_random _ x nn, fun k hk => ?bits, fun r hr => State.reg_setReg_of_ne _ _ hr, rfl⟩
  case bits =>
    rw [State.reg_setReg_same]
    exact BitVec.getLsbD_and

/-- Settles O40 (R120 to R122). -/
theorem indexInstructionsWriteIndexAlone : Obligations.IndexInstructionsWriteIndexAlone := by
  unfold Obligations.IndexInstructionsWriteIndexAlone
  intro s x nnn
  refine ⟨_, _, _, exec_setIndex s nnn, exec_addToIndex s x, exec_loadFontSprite s x, ?address, rfl, ?sum, rfl, ?glyph, rfl⟩
  all_goals rw [State.setIndex_i]
  case address => rw [toNat_zextAddr]
  case sum => rw [BitVec.toNat_add, toNat_zextByte]
  case glyph => rw [toNat_glyphAddr, val_lowNibble]

end Sys2Proof.Proofs

/-! The obligations about the display (44_display.md) and the delay timer (45_keypad_timer.md). -/

namespace Sys2Proof.Machine

/-! ### Drawing -/

theorem exec_clear (s : State) : exec .clear s = .next { s with fb := clearedFramebuffer } := rfl

/-- A pixel is toggled exactly when it is one of those that the drawing steps touch. -/
theorem Drawn.toggled_iff {d e : Drawing} {P : Fin 64 → Fin 32 → Prop} (h : Drawn d e P) (px : Fin 64) (py : Fin 32) :
    e.1.pixel px py = !d.1.pixel px py ↔ P px py := by
  by_cases hp : P px py
  · simp only [h.toggled px py hp, hp]
  · simp [h.kept px py hp, hp]

/-- The pixels under a sprite, with R132's coordinates as numbers. -/
theorem underSprite_iff (x0 y0 : Nat) (row : Nat → Byte) (n : Nat) (px : Fin 64) (py : Fin 32) :
    underSprite x0 y0 row n px py ↔
      ∃ r c : Nat, r < n ∧ c < 8 ∧ (row r).getLsbD (7 - c) = true ∧ px.val = (x0 + c) % 64 ∧ py.val = (y0 + r) % 32 := by
  have hcolumn (c : Nat) : px = wrapColumn (x0 + c) ↔ px.val = (x0 + c) % 64 := Fin.ext_iff
  have hrow (r : Nat) : py = wrapRow (y0 + r) ↔ py.val = (y0 + r) % 32 := Fin.ext_iff
  simp only [underSprite, underColumns, spriteBit, hcolumn, hrow]
  constructor
  · rintro ⟨r, hr, c, hc, h⟩
    exact ⟨r, c, hr, hc, h⟩
  · rintro ⟨r, c, hr, hc, h⟩
    exact ⟨r, hr, c, hc, h⟩

/-- Touching the same pixels twice leaves every pixel as before. -/
theorem Drawn.fb_eq_of_twice {d e d' e' : Drawing} {P : Fin 64 → Fin 32 → Prop} (h : Drawn d e P) (h' : Drawn d' e' P)
    (hfb : d'.1 = e.1) : e'.1 = d.1 := by
  refine Framebuffer.ext fun px py => ?_
  by_cases hp : P px py
  · rw [h'.toggled px py hp, hfb, h.toggled px py hp, Bool.not_not]
  · rw [h'.kept px py hp, hfb, h.kept px py hp]

/-- From a clear framebuffer, exactly the pixels touched are set. -/
theorem Drawn.pixel_iff_of_clear {d e : Drawing} {P : Fin 64 → Fin 32 → Prop} (h : Drawn d e P)
    (hclear : ∀ px py, d.1.pixel px py = false) (px : Fin 64) (py : Fin 32) : e.1.pixel px py = true ↔ P px py := by
  rw [← h.toggled_iff px py, hclear px py, Bool.not_false]

theorem flagByte_eq_one_iff (c : Bool) : flagByte c = 1 ↔ c = true := by
  cases c <;> decide

/-! ### The delay timer -/

theorem timeUnitsPerSecond_pos : 0 < Config.timeUnitsPerSecond := Nat.succ_pos _

/-- The timer as a number, in truncated subtraction (R144). -/
theorem State.toNat_timerValue (s : State) :
    s.timerValue.toNat = s.dtValue.toNat - (s.now - s.dtStamp) * 60 / Config.timeUnitsPerSecond := timerAt_toNat _ _ _ _

/-- With the same last write, a later read is not higher (R146). -/
theorem State.timerValue_le_of_now_le {s u : State} (hvalue : u.dtValue = s.dtValue) (hstamp : u.dtStamp = s.dtStamp)
    (hnow : s.now ≤ u.now) : u.timerValue.toNat ≤ s.timerValue.toNat := by
  rw [State.toNat_timerValue, State.toNat_timerValue, hvalue, hstamp]
  have helapsed : (s.now - s.dtStamp) * 60 ≤ (u.now - s.dtStamp) * 60 := by omega
  exact Nat.sub_le_sub_left (Nat.div_le_div_right helapsed) _

theorem exec_setDelayTimer (x : Reg) (s : State) : exec (.setDelayTimer x) s = .next (s.setTimer (s.reg x)) := rfl

end Sys2Proof.Machine

namespace Sys2Proof.Proofs

open Sys2Proof Sys2Proof.Machine

/-- Settles O43 (R130). -/
theorem clearUnsetsEveryPixel : Obligations.ClearUnsetsEveryPixel := by
  unfold Obligations.ClearUnsetsEveryPixel
  intro s
  exact ⟨_, exec_clear s, Framebuffer.pixel_cleared, rfl⟩

/-- Settles O44 (R131 to R133): the drawing touches exactly the pixels under the sprite. -/
theorem drawTogglesThePixelsUnderTheSprite : Obligations.DrawTogglesThePixelsUnderTheSprite := by
  unfold Obligations.DrawTogglesThePixelsUnderTheSprite
  intro s x y n
  refine ⟨_, exec_draw s x y n, fun px py => ?pixels, fun r hr => State.reg_setReg_of_ne _ _ hr, rfl⟩
  case pixels => exact ((s.drawing_drawn x y n).toggled_iff px py).trans (underSprite_iff _ _ _ _ px py)

/-- Settles O46 (W5): the second drawing reads the same coordinates and sprite, so it touches the same pixels; from a clear
framebuffer these are the ones the first has set. -/
theorem drawingTwiceRestoresThePixels : Obligations.DrawingTwiceRestoresThePixels := by
  unfold Obligations.DrawingTwiceRestoresThePixels
  intro s t u x y n hfirst hx hy hsecond
  have h₁ := s.drawing_drawn x y n
  have h₂ := t.drawing_drawn x y n
  rw [hx, hy] at h₂
  cases (exec_draw s x y n).symm.trans hfirst
  cases (exec_draw _ x y n).symm.trans hsecond
  refine ⟨h₁.fb_eq_of_twice h₂ rfl, fun hclear => ?flag⟩
  case flag =>
    have hset := h₁.pixel_iff_of_clear hclear
    rw [State.reg_setReg_flagReg, collisionFlag, flagByte_eq_one_iff, h₂.collision]
    constructor
    · rintro (hnone | ⟨px, py, -, hpixel⟩)
      · cases hnone
      · exact ⟨px, py, hpixel⟩
    · rintro ⟨px, py, hpixel⟩
      exact .inr ⟨px, py, (hset px py).mp hpixel, hpixel⟩

/-- Settles O48 (R142, R144). -/
theorem getDelayTimerReadsTheDecayedValue : Obligations.GetDelayTimerReadsTheDecayedValue := by
  unfold Obligations.GetDelayTimerReadsTheDecayedValue
  intro s x
  refine ⟨timeUnitsPerSecond_pos, _, exec_getDelayTimer x s, ?value, fun r hr => s.reg_setReg_of_ne _ hr, rfl⟩
  case value => rw [State.reg_setReg_same, State.toNat_timerValue]

/-- Settles O49 (R143). -/
theorem setDelayTimerRecordsValueAndTime : Obligations.SetDelayTimerRecordsValueAndTime := by
  unfold Obligations.SetDelayTimerRecordsValueAndTime
  intro s x
  exact ⟨_, exec_setDelayTimer x s, rfl⟩

/-- Settles O50 (R146): a read is the timer's value, which the last write and `now` determine, and which does not rise. -/
theorem timerReadsOnlyDecay : Obligations.TimerReadsOnlyDecay := by
  unfold Obligations.TimerReadsOnlyDecay
  intro s u x y hvalue hstamp
  refine ⟨_, _, exec_getDelayTimer x s, exec_getDelayTimer y u, rfl, rfl, ?sameTime, ?later⟩
  all_goals rw [State.reg_setReg_same, State.reg_setReg_same]
  case sameTime =>
    intro hnow
    rw [State.timerValue, State.timerValue, hvalue, hstamp, hnow]
  case later =>
    intro hnow
    have hle := State.timerValue_le_of_now_le hvalue hstamp hnow
    refine ⟨hle, fun hzero => ?_⟩
    rw [hzero] at hle
    exact BitVec.eq_of_toNat_eq (Nat.le_zero.mp hle)

end Sys2Proof.Proofs

/-! The obligations about Reset, load and the other host operations (70_reset_and_hazards.md, 40_step_cycle.md section 4). -/

namespace Sys2Proof.Machine

/-- After Reset every address reads as the reset contents (R21, R180). -/
theorem State.readByte_resetOp (s : State) {a : Nat} (ha : a < 4096) : s.resetOp.readByte a = resetByte a :=
  congrArg resetByte (Nat.mod_eq_of_lt ha)

theorem resetByte_of_font_end_le {a : Nat} (ha : 0x50 ≤ a) : resetByte a = 0 := List.getD_eq_default _ _ ha

theorem hostOp_loadProgram {s t : State} {r : LoadResult} {bytes : List Byte} (h : s.loadProgram bytes = (r, t)) :
    hostOp (.loadProgram bytes) s = .next (.loaded r, t) := by
  rw [hostOp, h]

theorem State.loadProgram_of_overflow (s : State) {bytes : List Byte} (h : 3584 < bytes.length) :
    s.loadProgram bytes = (.loadOverflow, s) := if_pos h

/-- After a successful load, an address below or above the image reads as before (R183). -/
theorem State.readByte_of_loadProgram_ok_of_outside {s t : State} {bytes : List Byte}
    (hload : s.loadProgram bytes = (.ok, t)) {a : Nat} (ha : a < 4096) (hout : a < 0x200 ∨ 0x200 + bytes.length ≤ a) :
    t.readByte a = s.readByte a := by
  obtain ⟨hfits, rfl⟩ := State.loadProgram_eq_ok_iff.mp hload
  have hread := Memory.read_writeBytes bytes s.mem 0x200 a (by omega) ha
  rwa [if_neg (by omega)] at hread

theorem State.keyDown_setKey (s : State) (k j : Fin 16) (p : Bool) :
    (s.setKey k p).keyDown j = if j = k then p else s.keyDown j := by
  simp only [State.keyDown, State.setKey_keys, Fin.getElem_fin, Vector.getElem_set, Fin.val_inj, eq_comm]

theorem State.keyDown_resetOp (s : State) (k : Fin 16) : s.resetOp.keyDown k = false := Vector.getElem_replicate _

theorem State.reg_resetOp (s : State) (r : Reg) : s.resetOp.reg r = 0 := Vector.getElem_replicate _

end Sys2Proof.Machine

namespace Sys2Proof.Proofs

open Sys2Proof Sys2Proof.Machine

/-- Settles O23 (R21, R180). -/
theorem resetLeavesTheListedValues : Obligations.ResetLeavesTheListedValues := by
  unfold Obligations.ResetLeavesTheListedValues
  rintro s u rfl
  refine ⟨s.reg_resetOp, rfl, rfl, rfl, rfl, Framebuffer.pixel_cleared, s.keyDown_resetOp, fun a ha => ?font,
    fun a hfont ha => ?zero, rfl, rfl, rfl, rfl⟩
  case font => exact s.readByte_resetOp (by omega)
  case zero => rw [s.readByte_resetOp ha, resetByte_of_font_end_le hfont]

/-- Settles O25 (R183): a load that fits succeeds, and the bytes are those of the block write. -/
theorem loadProgramCopiesFrom0x200 : Obligations.LoadProgramCopiesFrom0x200 := by
  unfold Obligations.LoadProgramCopiesFrom0x200
  intro s bytes hfits
  have hload : s.loadProgram bytes = (.ok, { s with mem := s.mem.writeBytes 0x200 bytes }) :=
    State.loadProgram_eq_ok_iff.mpr ⟨hfits, rfl⟩
  exact ⟨_, hostOp_loadProgram hload, fun k => State.readByte_of_loadProgram_ok hload,
    fun a => State.readByte_of_loadProgram_ok_of_outside hload, rfl⟩

/-- Settles O26 (R154, R183). -/
theorem loadOverflowWritesNothing : Obligations.LoadOverflowWritesNothing := by
  unfold Obligations.LoadOverflowWritesNothing
  intro s bytes hlong
  exact hostOp_loadProgram (s.loadProgram_of_overflow hlong)

/-- Settles O27 (R80, R81). -/
theorem hostReadsPixelsAndWritesOneKey : Obligations.HostReadsPixelsAndWritesOneKey := by
  unfold Obligations.HostReadsPixelsAndWritesOneKey
  intro s
  refine ⟨rfl, fun k p => ?inDomain, fun k p hk => hostOp_setKeyState_of_le hk p s⟩
  case inDomain => exact ⟨_, hostOp_setKeyState k p s, fun j => s.keyDown_setKey k j p, rfl⟩

end Sys2Proof.Proofs
